-- ==== Sys2Proof/Word.lean ====
section
/-! DEFINITION. The widths the spec gives its quantities (spec/00_scope.md R6, R7). -/
namespace Sys2Proof

/-- A byte, 8 bits (R7): packet bytes, bus bytes, statuses. -/
abbrev Byte := BitVec 8

/-- A 16-bit quantity: pointer, count, payload length, timeout, response data (R52, R21, R86). -/
abbrev Word16 := BitVec 16

/-- The 32-bit millisecond counter `now_ms` (R122). -/
abbrev Millis := BitVec 32

/-- A 7-bit device address (R79). -/
abbrev BusAddress := BitVec 7

end Sys2Proof
end

