-- ==== Sys2Proof/Config.lean ====
section
/-! DEFINITION. What an implementation fixes (spec/00_scope.md R6) and what the environment is free to answer
(spec/41_timeout_guard.md R120 to R122, spec/93_implementation_defined.md U12). -/
namespace Sys2Proof

/-- The eleven recognised BusStatus values (R6, R84); parameters, not constants of the block. -/
structure StatusCodes where
  start : Byte
  repStart : Byte
  mtSlaAck : Byte
  mtSlaNack : Byte
  mtDataAck : Byte
  mtDataNack : Byte
  lostArb : Byte
  mrSlaAck : Byte
  mrSlaNack : Byte
  mrDataAck : Byte
  mrDataNack : Byte
  deriving DecidableEq, Repr

/-- All eleven values, in the order of R6's table. -/
def StatusCodes.toList (c : StatusCodes) : List Byte :=
  [c.start, c.repStart, c.mtSlaAck, c.mtSlaNack, c.mtDataAck, c.mtDataNack, c.lostArb, c.mrSlaAck, c.mrSlaNack,
    c.mrDataAck, c.mrDataNack]

/-- The constraint of R84: pairwise distinct, each in 8..255. -/
abbrev StatusCodes.Valid (c : StatusCodes) : Prop := c.toList.Nodup ∧ ∀ x ∈ c.toList, 8 ≤ x.toNat

/-- The parameters of R6 that are OPEN, with the ranges R6 and R84 require of them. IDXW follows (`Params.idxw`),
TOW = 16 and NOWW = 32 are the types `Word16` and `Millis`. -/
structure Params where
  /-- `C`, the capacity of the ReceiveBuffer. -/
  capacity : Nat
  /-- `TIMEOUT_RESET`. -/
  timeoutReset : Word16
  /-- The eleven `ST_*` values. -/
  codes : StatusCodes
  /-- `C ≥ 1` (R6). -/
  capacity_pos : 1 ≤ capacity
  /-- `C ≤ 65535` (R6). -/
  capacity_le : capacity ≤ 65535
  /-- R84's constraint on the `ST_*` values. -/
  codes_valid : codes.Valid
  deriving DecidableEq, Repr

/-- `IDXW`: 8 when `C ≤ 255`, else 16 (R6). -/
def Params.idxw (p : Params) : Nat := if p.capacity ≤ 255 then 8 else 16

/-- An IDXW-bit quantity: `total`, `available` (R6, R20, R22). -/
abbrev Params.Index (p : Params) : Type := BitVec p.idxw

/-- PRESUMED (log 2): the default `ST_*` values of R6, which the spec marks as general knowledge. Unsafe only for a
statement about `State.reset` itself. -/
def StatusCodes.default : StatusCodes :=
  { start := 0x08, repStart := 0x10, mtSlaAck := 0x18, mtSlaNack := 0x20, mtDataAck := 0x28, mtDataNack := 0x30,
    lostArb := 0x38, mrSlaAck := 0x40, mrSlaNack := 0x48, mrDataAck := 0x50, mrDataNack := 0x58 }

/-- DESIGN CHOICE (log 1): the defaults of R6, which `State.reset` takes. -/
def Params.default : Params :=
  { capacity := 32, timeoutReset := 0, codes := StatusCodes.default,
    capacity_pos := by decide, capacity_le := by decide, codes_valid := by decide }

/-- What one poll of a guarded wait sees (R124): the flag read (`HB.Complete()`, or `HB.StopBusy()` in a stop) and
the time read when the timeout is tested. -/
structure Poll where
  flag : Bool
  now : Millis
  deriving DecidableEq, Repr, Inhabited

/-- The environment's answer to one action (U12): the time the primitive starts, the polls it sees in this step, the
status and the data byte. Status and byte belong to the action they are given with (R121 (b)). -/
structure Answer where
  /-- `now_ms` when the primitive records its start time (R24). -/
  now0 : Millis
  /-- The polls of this step, in order; a wait they do not decide goes on in the next step. -/
  polls : List Poll
  /-- `HB.Status()` after the action. -/
  status : Byte
  /-- `HB.RxData()` after a receive. -/
  rxData : Byte
  deriving DecidableEq, Repr, Inhabited

/-- FREE VALUE (log 5): what the controller and the clock answer to an action about which nothing is settled. -/
opaque Config.freeAnswer : Nat → Answer

end Sys2Proof
end

