-- ==== Sys2Proof/Machine/State.lean ====
section
/-! DEFINITION. The state of the sequencer as plain data (spec/10_state.md R20, R29, R30), its faults and its reset. -/
namespace Sys2Proof.Machine

/-- One operation on the HardwareBus interface, with its argument (R120). -/
inductive HbOp where
  | issueStart
  | transmit (v : Byte)
  | receive (ack : Bool)
  | issueStop
  | status
  | forceReset
  | complete
  | stopBusy
  | rxData
  deriving DecidableEq, Repr

/-- The five engine primitives with their arguments (R100 to R106, R110). -/
inductive Prim where
  | start
  | sendA (b : Byte)
  | sendB (b : Byte)
  | recvB (ack : Bool)
  | stop
  deriving DecidableEq, Repr

/-- One primitive of a transaction and the number of the stage that runs it (R26). -/
structure Call where
  stage : BitVec 3
  prim : Prim
  deriving DecidableEq, Repr

/-- Which guarded wait a primitive is in: that of its own action, or that of the stop of its NACK path (R109). -/
inductive Phase where
  | action
  | nackStop
  deriving DecidableEq, Repr

/-- The rest of the running command (R70: sampled whole when accepted): a primitive command, or the calls a
transaction has still to make. The first primitive is the one in progress. -/
inductive Job where
  | primitive (ph : Phase) (p : Prim)
  | transaction (ph : Phase) (c : Call) (rest : List Call)
  deriving DecidableEq, Repr

/-- The response to a packet (R86). -/
structure Response where
  illegal : Bool
  result : Byte
  data : Word16
  deriving DecidableEq, Repr

/-- The bytes of the ReceiveBuffer that something has written, by index: indices strictly rising (`Memory.wf`). A byte
not listed has never been written since reset (R30, U5). -/
abbrev Memory := List Host.Cell

/-- The state: the registers and the memory of R20, the parameters of R6, the observation variables of R29, the command
in progress, and the inputs and outputs of R28 and R70. -/
structure State where
  /-- The parameters (R6); no step writes them. -/
  params : Params
  /-- `timeout_ms` (R21). -/
  timeoutMs : Word16
  /-- `buf` (R22). -/
  buf : Memory
  /-- `total`, IDXW bits (R20, R22, R23). -/
  total : params.Index
  /-- `available`, IDXW bits (R20, R22, R23). -/
  available : params.Index
  /-- `t0` (R24). -/
  t0 : Millis
  /-- `st` (R25). -/
  st : Byte
  /-- `rx` (R25). -/
  rx : Byte
  /-- `stage` (R26). -/
  stage : BitVec 3
  /-- `idx` (R26). -/
  idx : BitVec 17
  /-- `busy` (R27). -/
  busy : Bool
  /-- The command in progress; some exactly while `busy` (model's own, log 7). -/
  job : Option Job
  /-- `hb_trace`, oldest first, polls included (R29). -/
  hbTrace : List HbOp
  /-- `bus_held` (R29). -/
  busHeld : Bool
  /-- The reset input (R220, R221). -/
  resetLine : Bool
  /-- The packets the caller presents, in order (R70). -/
  offers : List (List Byte)
  /-- The responses handed back, in order (R70, R86). -/
  responses : List Response
  /-- The environment's answers already settled, one an action (U12; model's own, log 5). -/
  env : List Answer
  /-- The index of the next free answer (model's own, log 5). -/
  draws : Nat
  deriving DecidableEq, Repr

/-- `total` as a number. -/
def State.totalNat (s : State) : Nat := s.total.toNat

/-- `available` as a number. -/
def State.availableNat (s : State) : Nat := s.available.toNat

/-- `zext_16(available)` (R86, R170). -/
def State.availableWord (s : State) : Word16 := s.available.setWidth 16

/-- Why the machine stops. The spec gives the block no fault of its own (R194, R196): every one of these stands in
states no run from reset reaches, and every one is safe (the model stops, it claims nothing). -/
inductive Fault where
  /-- Raised by RECV: the byte it should return was never written (U5 asks for a fault). Safe. -/
  | unwrittenBufferByte
  /-- Raised by RECV: `available > total` or the read index is not below `C` (R22, R64). Safe. -/
  | bufferIndexOutOfRange
  /-- Raised by step on a busy block: the receives of the running command do not fit the buffer (R64). Safe. -/
  | bufferOverrun
  /-- Raised by step: `busy` is 1 and there is no command in progress (R27). Safe. -/
  | positionLost
  deriving DecidableEq, Repr

/-- What the machine has no meaning for. -/
inductive Refusal where
  /-- Raised by an arm of exec for a command that has no meaning yet; no arm raises it now. Safe. -/
  | notModelled (mnemonic : String)
  deriving DecidableEq, Repr

/-- The state after reset with parameters `p` (R30, R220). DESIGN CHOICE (log 3): `t0`, `st` and `rx`, which R30 leaves
unspecified, hold 0; unsafe for a claim that rests on one of these zeros. -/
def State.resetWith (p : Params) : State :=
  { params := p, timeoutMs := p.timeoutReset, buf := [], total := 0, available := 0, t0 := 0, st := 0, rx := 0,
    stage := 0, idx := 0, busy := false, job := none, hbTrace := [], busHeld := false, resetLine := false,
    offers := [], responses := [], env := [], draws := 0 }

/-- The machine right after reset, with the default parameters of R6 (DESIGN CHOICE, logs 1 and 2). -/
def State.reset : State := State.resetWith Params.default

end Sys2Proof.Machine
end

