-- ==== Sys2Proof/Machine/Flags.lean ====
section
/-! DEFINITION. The tests the block makes: the controller's two flags, the expiry of the timeout, and the decision on a
status (spec/41_timeout_guard.md R123, R124, spec/40_primitives.md R100). The block has no condition codes (R27). -/
namespace Sys2Proof.Machine

/-- The flag a guarded wait polls (R124). -/
inductive WaitOn where
  /-- `HB.Complete`, in START, SENDA, SENDB and RECVB. -/
  | complete
  /-- `not HB.StopBusy`, in STOP. -/
  | stopDone
  deriving DecidableEq, Repr

/-- The HardwareBus read one poll makes (R120). -/
def WaitOn.pollOp : WaitOn → HbOp
  | .complete => .complete
  | .stopDone => .stopBusy

/-- Whether the flag read satisfies the wait's predicate (R124). -/
def WaitOn.holds : WaitOn → Bool → Bool
  | .complete, flag => flag
  | .stopDone, flag => !flag

/-- `elapsed`, modulo 2^32 (R123). -/
def elapsed (t0 now : Millis) : Millis := now - t0

/-- `expired` (R123): the guard is enabled and the elapsed time has reached it. -/
def expired (timeout : Word16) (t0 now : Millis) : Bool :=
  timeout ≠ 0 && timeout.toNat ≤ (elapsed t0 now).toNat

/-- How a guarded wait stands after the polls of one step. -/
inductive WaitEnd where
  | done
  | timeout
  /-- Not decided yet: the block goes on polling (R124, R125). -/
  | undecided
  deriving DecidableEq, Repr

/-- The guarded wait over the polls of one step, completion tested before the timeout (R124, R126): how it stands, and
how many polls it made. -/
def pollWait (on : WaitOn) (timeout : Word16) (t0 : Millis) : List Poll → WaitEnd × Nat
  | [] => (.undecided, 0)
  | p :: ps =>
    if on.holds p.flag then (.done, 1)
    else if expired timeout t0 p.now then (.timeout, 1)
    else ((pollWait on timeout t0 ps).1, (pollWait on timeout t0 ps).2 + 1)

/-- What a status means to a primitive (R100). -/
inductive Verdict where
  | success
  | nack
  | other
  deriving DecidableEq, Repr

/-- The success set of a primitive (R100); a stop reads no status. -/
def successSet (c : StatusCodes) : Prim → List Byte
  | .start => [c.start, c.repStart]
  | .sendA _ => [c.mtSlaAck, c.mrSlaAck]
  | .sendB _ => [c.mtDataAck]
  | .recvB true => [c.mrDataAck]
  | .recvB false => [c.mrDataNack]
  | .stop => []

/-- The NACK set of a primitive (R100). -/
def nackSet (c : StatusCodes) : Prim → List Byte
  | .start => []
  | .sendA _ => [c.mtSlaNack, c.mrSlaNack]
  | .sendB _ => [c.mtDataNack]
  | .recvB _ => []
  | .stop => []

/-- The status decision: success set first, then NACK set, everything else is a fault (R100, R195). -/
def judge (c : StatusCodes) (p : Prim) (x : Byte) : Verdict :=
  if x ∈ successSet c p then .success else if x ∈ nackSet c p then .nack else .other

/-- The outcome of a primitive (R100). -/
inductive PrimOutcome where
  | ok
  | timeout
  | nack (x : Byte)
  | fault (x : Byte)
  deriving DecidableEq, Repr

/-- Where a primitive stands after the polls of one step: ended, or still in one of its waits (R125, R199). -/
inductive Progress where
  | ended (o : PrimOutcome)
  | pending (ph : Phase)
  deriving DecidableEq, Repr

/-- The result of a primitive command (last column of R100's first table). -/
def PrimOutcome.code : PrimOutcome → Byte
  | .ok => 0
  | .timeout => 1
  | .nack x => x
  | .fault x => x

/-- `Remap(s, o)`, the result of a transaction that ends because stage `s` returned `o` (R143, R192). -/
def PrimOutcome.remap (s : BitVec 3) : PrimOutcome → Byte
  | .ok => 0
  | .timeout => s.setWidth 8
  | .nack _ => s.setWidth 8
  | .fault x => x

/-- The failure classes of R191. -/
inductive FailureClass where
  | success
  | timeoutAtStage
  | deviceNack
  | lostArbitration
  | unknownHardwareFault
  deriving DecidableEq, Repr

/-- The class of an outcome (R191). -/
def PrimOutcome.failureClass (c : StatusCodes) : PrimOutcome → FailureClass
  | .ok => .success
  | .timeout => .timeoutAtStage
  | .nack _ => .deviceNack
  | .fault x => if x = c.lostArb then .lostArbitration else .unknownHardwareFault

end Sys2Proof.Machine
end

