-- ==== Sys2Proof/Machine/Ops.lean ====
section
/-! DEFINITION. The named operations over the buffer, the registers and the boundary: what reads and writes State. The
end of a command, which takes the place of an exception in this block (spec/60_exceptions.md R196, R197), is
`State.respond` and `State.finish`. -/
namespace Sys2Proof.Machine

/-- `MemRead(i, 1)`: the byte at index `i`, none where nothing was written since reset (R8, U5). -/
def Memory.read? (m : Memory) (i : Nat) : Option Byte :=
  match m with
  | [] => none
  | c :: rest => if c.1 = i then some c.2 else Memory.read? rest i

/-- `MemWrite(i, 1, v)`, keeping the indices strictly rising (R8). -/
def Memory.write (m : Memory) (i : Nat) (v : Byte) : Memory :=
  match m with
  | [] => [(i, v)]
  | c :: rest =>
    if i < c.1 then (i, v) :: c :: rest
    else if i = c.1 then (i, v) :: rest
    else c :: Memory.write rest i v

/-- The canonical form of `buf`: indices strictly rising. Nothing else is asked: an unlisted byte reads as no value, so
no entry equals it. -/
def Memory.wf (m : Memory) : Bool :=
  match m with
  | [] => true
  | c :: rest => rest.all (fun d => c.1 < d.1) && Memory.wf rest

/-- The answer the environment gives next: the first settled one, else a free one (U12, log 5). -/
def State.answer (s : State) : Answer :=
  match s.env with
  | [] => Config.freeAnswer s.draws
  | a :: _ => a

/-- That answer is used up. -/
def State.dropAnswer (s : State) : State :=
  { s with env := s.env.tail, draws := if s.env.isEmpty then s.draws + 1 else s.draws }

/-- HardwareBus operations are issued, in order (R29, R59). -/
def State.emit (s : State) (ops : List HbOp) : State := { s with hbTrace := s.hbTrace ++ ops }

/-- A primitive's first two actions: the start time, then the bus operation (R24, R100, D13). -/
def State.issue (s : State) (now : Millis) (op : HbOp) : State :=
  { s with t0 := now, hbTrace := s.hbTrace ++ [op] }

/-- `Recover()`: one force-reset, which also ends the holding of the bus (R127, R29). -/
def State.recover (s : State) : State := { s with hbTrace := s.hbTrace ++ [.forceReset], busHeld := false }

/-- `bus_held` (R29). -/
def State.setHeld (s : State) (b : Bool) : State := { s with busHeld := b }

/-- `st <- HB.Status()` (R25). -/
def State.latchStatus (s : State) (x : Byte) : State := { s with st := x, hbTrace := s.hbTrace ++ [.status] }

/-- `rx <- HB.RxData()` (R25). -/
def State.latchRx (s : State) (x : Byte) : State := { s with rx := x, hbTrace := s.hbTrace ++ [.rxData] }

/-- `total <- 0; available <- 0`; `buf` is not erased (R150). -/
def State.clearBuffer (s : State) : State := { s with total := 0, available := 0 }

/-- `buf[total] <- rx; total <- total + 1; available <- available + 1` (R152). -/
def State.appendRx (s : State) : State :=
  { s with buf := Memory.write s.buf s.totalNat s.rx, total := s.total + 1, available := s.available + 1 }

/-- `stage <- k`, and `idx <- 0` unless the stage goes on (R26, R142). -/
def State.enterStage (s : State) (k : BitVec 3) : State :=
  { s with stage := k, idx := if s.stage = k then s.idx else 0 }

/-- `idx <- idx + 1` (R142, R152). -/
def State.advanceIdx (s : State) : State := { s with idx := s.idx + 1 }

/-- `stage <- 0; idx <- 0` (R142's finish, R26). -/
def State.leaveStages (s : State) : State := { s with stage := 0, idx := 0 }

/-- A command is accepted (R70): `busy <- 1`. -/
def State.accept (s : State) : State := { s with busy := true, job := none }

/-- The command goes on in the next step: `busy` stays 1 (R125). -/
def State.suspend (s : State) (j : Job) : State := { s with job := some j }

/-- The response is handed back and the block is idle (R70, R86, R197). -/
def State.respond (s : State) (result : Byte) (data : Word16) : State :=
  { s with busy := false, job := none, responses := s.responses ++ [⟨false, result, data⟩] }

/-- `finish(r)`: a transaction ends with result `r`, its position back at (0, 0), data 0 (R142, R143, R196). -/
def State.finish (s : State) (result : Byte) : State := s.leaveStages.respond result 0

/-- An illegal packet's response; nothing else changes (R88, R200). -/
def State.refuse (s : State) : State := { s with responses := s.responses ++ [⟨true, 0, 0⟩] }

/-- A packet leaves the port. -/
def State.setOffers (s : State) (o : List (List Byte)) : State := { s with offers := o }

/-- `timeout_ms <- t` (R172). -/
def State.setTimeout (s : State) (t : Word16) : State := { s with timeoutMs := t }

/-- `available <- available - 1` (R171, R64). -/
def State.consume (s : State) : State := { s with available := s.available - 1 }

/-- Reset: the state of R30, a running command abandoned without a response (R220, R221). The parameters, the packets
the caller presents, the responses it already has and the environment are not the block's and stay (log 9). -/
def State.takeReset (s : State) : State :=
  { State.resetWith s.params with offers := s.offers, responses := s.responses, env := s.env, draws := s.draws }

/-- `n_reset`: the force-resets in the trace (R29). -/
def State.nReset (s : State) : Nat := s.hbTrace.count .forceReset

end Sys2Proof.Machine
end

