-- ==== Sys2Proof/Machine/Buffer.lean ====
section
/-! DEFINITION. The buffer consumer commands AVAIL and RECV and the timeout commands SETTO and GETTO
(spec/44_buffer_config.md). -/
namespace Sys2Proof.Machine

/-- AVAIL (R170): the count, zero-extended to 16 bits. -/
def execAvail (s : State) : Host.Outcome State Fault Refusal := .next (s.accept.respond 0 s.availableWord)

/-- The index RECV reads, `total - available` (R22, R64 (c)): none where the counters or the buffer's size admit none. -/
def State.readIndex (s : State) : Option Nat :=
  if s.availableNat ≤ s.totalNat ∧ s.totalNat - s.availableNat < s.params.capacity then
    some (s.totalNat - s.availableNat)
  else none

/-- RECV (R171): the oldest unread byte, or 0 from an empty buffer. -/
def execRecv (s : State) : Host.Outcome State Fault Refusal :=
  if s.availableNat = 0 then .next (s.accept.respond 0 0)
  else
    match s.readIndex with
    | none => .fault .bufferIndexOutOfRange
    | some i =>
      match Memory.read? s.buf i with
      | none => .fault .unwrittenBufferByte
      | some v => .next (s.accept.consume.respond 0 (v.setWidth 16))

/-- SETTO `t` (R172). -/
def execSetto (t : Word16) (s : State) : Host.Outcome State Fault Refusal := .next ((s.accept.setTimeout t).respond 0 0)

/-- GETTO (R173). -/
def execGetto (s : State) : Host.Outcome State Fault Refusal := .next (s.accept.respond 0 s.timeoutMs)

end Sys2Proof.Machine
end

