-- ==== Sys2Proof/Syntax.lean ====
section
/-! DEFINITION. The fifteen commands of spec/30_encoding.md R74, one constructor per row of spec/opcode_table.json. -/
namespace Sys2Proof

/-- A command with its operands (R71, R79 to R85). The payload length `m` is the length of `d` (R90). -/
inductive Instr where
  /-- START, 0x01, format Z (R101). -/
  | start
  /-- SENDA `b`, 0x02, format B (R102). -/
  | senda (b : Byte)
  /-- SENDB `b`, 0x03, format B (R103). -/
  | sendb (b : Byte)
  /-- RECVB.N, 0x04, format Z (R105). -/
  | recvbN
  /-- RECVB.A, 0x05, format Z (R104). -/
  | recvbA
  /-- STOP, 0x06, format Z (R106). -/
  | stop
  /-- WRITE.P8 `a, p, d`, 0x10, format W8 (R140). -/
  | writeP8 (a : BusAddress) (p : Byte) (d : List Byte)
  /-- WRITE.P16 `a, p, d`, 0x11, format W16 (R141). -/
  | writeP16 (a : BusAddress) (p : Word16) (d : List Byte)
  /-- READ `a, n`, 0x20, format R (R153). -/
  | read (a : BusAddress) (n : Word16)
  /-- WRRD.P8 `a, p, n`, 0x30, format X8 (R154). -/
  | wrrdP8 (a : BusAddress) (p : Byte) (n : Word16)
  /-- WRRD.P16 `a, p, n`, 0x31, format X16 (R155). -/
  | wrrdP16 (a : BusAddress) (p : Word16) (n : Word16)
  /-- AVAIL, 0x40, format Z (R170). -/
  | avail
  /-- RECV, 0x41, format Z (R171). -/
  | recv
  /-- SETTO `t`, 0x50, format T (R172). -/
  | setto (t : Word16)
  /-- GETTO, 0x51, format Z (R173). -/
  | getto
  deriving DecidableEq, Repr

end Sys2Proof
end

