-- ==== Sys2Proof/WellFormed.lean ====
section
/-! DEFINITION. Which commands a packet can express. -/
namespace Sys2Proof

/-- A payload fits the 16-bit length field `m` (R83). -/
def payloadFits (d : List Byte) : Bool := d.length ≤ 65535

/-- Well-formedness: the payload of a write fits its length field. Every other operand has exactly the values its
type has (R89; the address's bit 7 is excluded by the type, R79). -/
def Instr.wellFormed : Instr → Bool
  | .start => true
  | .senda _ => true
  | .sendb _ => true
  | .recvbN => true
  | .recvbA => true
  | .stop => true
  | .writeP8 _ _ d => payloadFits d
  | .writeP16 _ _ d => payloadFits d
  | .read _ _ => true
  | .wrrdP8 _ _ _ => true
  | .wrrdP16 _ _ _ => true
  | .avail => true
  | .recv => true
  | .setto _ => true
  | .getto => true

end Sys2Proof
end

