-- ==== Sys2Proof/Decode.lean ====
section
/-! DEFINITION. Packets to commands and back (spec/30_encoding.md R71 to R74, R79, R88). -/
namespace Sys2Proof

/-- Why a packet is illegal, the three causes of R88. -/
inductive Reject where
  /-- (a) `B[0]` is none of the fifteen values of R74. -/
  | reservedOpcode
  /-- (b) the length is not the one R73 gives; an empty packet too (R71: `L ≥ 1`; DESIGN CHOICE, log 15). -/
  | badLength
  /-- (c) the address operand has `a[7] = 1` (R79). -/
  | addressBit7
  deriving DecidableEq, Repr

/-- A row of the opcode map: its format (R71), and the command its operands make. -/
inductive Row where
  | z (i : Instr)
  | b (k : Byte → Instr)
  | t (k : Word16 → Instr)
  | r (k : BusAddress → Word16 → Instr)
  | x8 (k : BusAddress → Byte → Word16 → Instr)
  | x16 (k : BusAddress → Word16 → Word16 → Instr)
  | w8 (k : BusAddress → Byte → List Byte → Instr)
  | w16 (k : BusAddress → Word16 → List Byte → Instr)

/-- The opcode map of R74; every other value is reserved. -/
def rowOf : Nat → Option Row
  | 0x01 => some (.z .start)
  | 0x02 => some (.b .senda)
  | 0x03 => some (.b .sendb)
  | 0x04 => some (.z .recvbN)
  | 0x05 => some (.z .recvbA)
  | 0x06 => some (.z .stop)
  | 0x10 => some (.w8 .writeP8)
  | 0x11 => some (.w16 .writeP16)
  | 0x20 => some (.r .read)
  | 0x30 => some (.x8 .wrrdP8)
  | 0x31 => some (.x16 .wrrdP16)
  | 0x40 => some (.z .avail)
  | 0x41 => some (.z .recv)
  | 0x50 => some (.t .setto)
  | 0x51 => some (.z .getto)
  | _ => none

/-- A 16-bit field from its two packet bytes, most significant first (R52). -/
def joinBytes (hi lo : Byte) : Word16 := (hi.setWidth 16) <<< 8 ||| lo.setWidth 16

/-- Bits [15:8]. -/
def hiByte (w : Word16) : Byte := w.extractLsb' 8 8

/-- Bits [7:0]. -/
def loByte (w : Word16) : Byte := w.extractLsb' 0 8

/-- The address check of R79 and R88 (c): bit 7 must be 0, bits [6:0] are the address. -/
def withAddress (a : Byte) (k : BusAddress → Instr) : Except Reject Instr :=
  if a.getLsbD 7 then .error .addressBit7 else .ok (k (a.extractLsb' 0 7))

/-- The operands of a row from the bytes after the opcode (R71), length first, then the address (R88). -/
def Row.operands : Row → List Byte → Except Reject Instr
  | .z i, [] => .ok i
  | .b k, [x] => .ok (k x)
  | .t k, [th, tl] => .ok (k (joinBytes th tl))
  | .r k, [a, nh, nl] => withAddress a fun d => k d (joinBytes nh nl)
  | .x8 k, [a, p, nh, nl] => withAddress a fun d => k d p (joinBytes nh nl)
  | .x16 k, [a, ph, pl, nh, nl] => withAddress a fun d => k d (joinBytes ph pl) (joinBytes nh nl)
  | .w8 k, a :: p :: mh :: ml :: d =>
    if d.length = (joinBytes mh ml).toNat then withAddress a fun x => k x p d else .error .badLength
  | .w16 k, a :: ph :: pl :: mh :: ml :: d =>
    if d.length = (joinBytes mh ml).toNat then withAddress a fun x => k x (joinBytes ph pl) d else .error .badLength
  | _, _ => .error .badLength

/-- The decoder, total on packets: opcode, then length, then address (R88). -/
def decode : List Byte → Except Reject Instr
  | [] => .error .badLength
  | op :: rest =>
    match rowOf op.toNat with
    | none => .error .reservedOpcode
    | some row => row.operands rest

/-- The packet length R73 gives a row; `bs` is the packet (at least up to the length field `m`, zero beyond). -/
def Row.packetLength (bs : List Byte) : Row → Nat
  | .z _ => 1
  | .b _ => 2
  | .t _ => 3
  | .r _ => 4
  | .x8 _ => 5
  | .x16 _ => 6
  | .w8 _ => 5 + (joinBytes (bs.getD 3 0) (bs.getD 4 0)).toNat
  | .w16 _ => 6 + (joinBytes (bs.getD 4 0) (bs.getD 5 0)).toNat

/-- The address operand's packet byte: bit 7 zero (R79). -/
def addressByte (a : BusAddress) : Byte := a.setWidth 8

/-- The two bytes of a payload's length field (R71, R83). -/
def lengthBytes (d : List Byte) : List Byte :=
  [hiByte (BitVec.ofNat 16 d.length), loByte (BitVec.ofNat 16 d.length)]

/-- The packet of a command, from the format table R71 and the syntax table R90. -/
def encode : Instr → List Byte
  | .start => [0x01]
  | .senda b => [0x02, b]
  | .sendb b => [0x03, b]
  | .recvbN => [0x04]
  | .recvbA => [0x05]
  | .stop => [0x06]
  | .writeP8 a p d => [0x10, addressByte a, p] ++ lengthBytes d ++ d
  | .writeP16 a p d => [0x11, addressByte a, hiByte p, loByte p] ++ lengthBytes d ++ d
  | .read a n => [0x20, addressByte a, hiByte n, loByte n]
  | .wrrdP8 a p n => [0x30, addressByte a, p, hiByte n, loByte n]
  | .wrrdP16 a p n => [0x31, addressByte a, hiByte p, loByte p, hiByte n, loByte n]
  | .avail => [0x40]
  | .recv => [0x41]
  | .setto t => [0x50, hiByte t, loByte t]
  | .getto => [0x51]

/-- The `n` low bytes of `w`, the least significant first. -/
def lowBytes : Nat → Nat → List Byte
  | 0, _ => []
  | n + 1, w => BitVec.ofNat 8 w :: lowBytes n (w / 256)

/-- The packet whose bits are `w` as spec/opcode_table.json numbers them (byte 0 lowest), the bits above `nbits` zero up
to the length R73 gives the opcode. -/
def tablePacket (nbits w : Nat) : List Byte :=
  let n := (nbits + 7) / 8
  let given := lowBytes n (w % 2 ^ nbits)
  match rowOf (given.headD 0).toNat with
  | none => given
  | some row => given ++ List.replicate (row.packetLength given - n) 0

/-- The command the decoder reads from a word of the opcode table. -/
def decodeTableWord (nbits w : Nat) : Option Instr :=
  match decode (tablePacket nbits w) with
  | .ok i => some i
  | .error _ => none

end Sys2Proof
end

