-- ==== Sys2Proof/Machine/Operands.lean ====
section
/-! DEFINITION. Operand assembly: wire address bytes, pointer bytes, the count (spec/30_encoding.md R80 to R83), and the
sequences of stages the transactions run (spec/42_write.md R142, spec/43_read.md R152 to R154). -/
namespace Sys2Proof.Machine

/-- `SLA_W(a)`, `address << 1`: the 7 address bits and a 0 (R80). -/
def slaW (a : BusAddress) : Byte := (a.setWidth 8) <<< 1

/-- `SLA_R(a)`, `address << 1 | 1`: the 7 address bits and a 1 (R80). -/
def slaR (a : BusAddress) : Byte := (a.setWidth 8) <<< 1 ||| 1

/-- The pointer byte list of an 8-bit pointer (R81). -/
def pointerBytes8 (p : Byte) : List Byte := [p]

/-- The pointer byte list of a 16-bit pointer, most significant byte first (R81, R51). -/
def pointerBytes16 (p : Word16) : List Byte := [hiByte p, loByte p]

/-- The normalised count `N'` for capacity `c` (R82, R151). -/
def normalise (c : Nat) (n : Word16) : Nat :=
  if n.toNat = 0 then 1 else if c < n.toNat then c else n.toNat

/-- Stage 3: one data byte after another (R142, R154). -/
def sendCalls (bytes : List Byte) : List Call := bytes.map fun b => ⟨3, .sendB b⟩

/-- Stage 6: `count` receives, acknowledged but for the last (R152). -/
def receiveCalls : Nat → List Call
  | 0 => []
  | 1 => [⟨6, .recvB false⟩]
  | n + 2 => ⟨6, .recvB true⟩ :: receiveCalls (n + 1)

/-- The stages of a write transaction (R142). -/
def writeCalls (a : BusAddress) (bytes : List Byte) : List Call :=
  [⟨1, .start⟩, ⟨2, .sendA (slaW a)⟩] ++ sendCalls bytes ++ [⟨7, .stop⟩]

/-- The stages of a direct read of `count` bytes (R153). -/
def readCalls (a : BusAddress) (count : Nat) : List Call :=
  [⟨1, .start⟩, ⟨5, .sendA (slaR a)⟩] ++ receiveCalls count ++ [⟨7, .stop⟩]

/-- The stages of a write-then-read of `count` bytes: no stop before the repeated start (R154, R156). -/
def writeReadCalls (a : BusAddress) (ptr : List Byte) (count : Nat) : List Call :=
  [⟨1, .start⟩, ⟨2, .sendA (slaW a)⟩] ++ sendCalls ptr ++ [⟨4, .start⟩, ⟨5, .sendA (slaR a)⟩] ++ receiveCalls count
    ++ [⟨7, .stop⟩]

end Sys2Proof.Machine
end

