-- ==== Sys2Proof/Machine/Engine.lean ====
section
/-! DEFINITION. The engine: the guarded wait, the five primitives, and the running of a command's primitives
(spec/41_timeout_guard.md R124, spec/40_primitives.md R100 to R109, spec/42_write.md R142, R143). One step runs a
command until it responds, or until the environment's answer leaves one of its waits undecided (R26, R125, log 7). -/
namespace Sys2Proof.Machine

/-- The HardwareBus operation a primitive issues (R101 to R106). -/
def Prim.busOp : Prim → HbOp
  | .start => .issueStart
  | .sendA b => .transmit b
  | .sendB b => .transmit b
  | .recvB ack => .receive ack
  | .stop => .issueStop

/-- `Wait(pred)` over the polls of one answer, with its recovery on expiry (R124, R128 (a)). -/
def State.guardedWait (s : State) (on : WaitOn) (polls : List Poll) : WaitEnd × State :=
  let w := pollWait on s.timeoutMs s.t0 polls
  let s' := s.emit (List.replicate w.2 on.pollOp)
  match w.1 with
  | .done => (.done, s')
  | .timeout => (.timeout, s'.recover)
  | .undecided => (.undecided, s')

/-- `Prim_STOP` from its wait on (R106). -/
def awaitStop (a : Answer) (s : State) : Progress × State :=
  match s.guardedWait .stopDone a.polls with
  | (.done, s') => (.ended .ok, s'.setHeld false)
  | (.timeout, s') => (.ended .timeout, s')
  | (.undecided, s') => (.pending .action, s')

/-- `Prim_STOP` (R106). -/
def primStop (s : State) : Progress × State := awaitStop s.answer (s.dropAnswer.issue s.answer.now0 .issueStop)

/-- The end of a NACK path: the outcome of the inner stop is dropped (R109). -/
def dropStopOutcome (x : Byte) : Progress × State → Progress × State
  | (.ended _, s) => (.ended (.nack x), s)
  | (.pending _, s) => (.pending .nackStop, s)

/-- What a primitive does when its status is a success: a start holds the bus, a receive takes its byte
(R29, R101, R104). -/
def State.succeed (s : State) (p : Prim) (a : Answer) : State :=
  match p with
  | .start => s.setHeld true
  | .sendA _ => s
  | .sendB _ => s
  | .recvB _ => s.latchRx a.rxData
  | .stop => s

/-- The status decision and what follows it (R100, R107): nothing more, the inner stop, or one recovery. -/
def decideStatus (p : Prim) (a : Answer) (s : State) : Progress × State :=
  match judge s.params.codes p s.st with
  | .success => (.ended .ok, s.succeed p a)
  | .nack => dropStopOutcome s.st (primStop s)
  | .other => (.ended (.fault s.st), s.recover)

/-- A status-reading primitive from its wait on (R101 to R105). -/
def awaitComplete (p : Prim) (a : Answer) (s : State) : Progress × State :=
  match s.guardedWait .complete a.polls with
  | (.done, s') => decideStatus p a (s'.latchStatus a.status)
  | (.timeout, s') => (.ended .timeout, s')
  | (.undecided, s') => (.pending .action, s')

/-- A primitive from its wait on (R100). -/
def awaitPrim (p : Prim) (a : Answer) (s : State) : Progress × State :=
  match p with
  | .start => awaitComplete p a s
  | .sendA _ => awaitComplete p a s
  | .sendB _ => awaitComplete p a s
  | .recvB _ => awaitComplete p a s
  | .stop => awaitStop a s

/-- `Prim_X` from its beginning (R101 to R106). -/
def runPrim (p : Prim) (s : State) : Progress × State :=
  awaitPrim p s.answer (s.dropAnswer.issue s.answer.now0 p.busOp)

/-- A primitive whose wait an earlier step left undecided goes on polling (R124, R125). -/
def resumePrim (ph : Phase) (p : Prim) (s : State) : Progress × State :=
  match ph with
  | .action => awaitPrim p s.answer s.dropAnswer
  | .nackStop => dropStopOutcome s.st (awaitStop s.answer s.dropAnswer)

/-- The data a primitive command returns on success (R86, R104, R105). -/
def Prim.data (p : Prim) (s : State) : Word16 :=
  match p with
  | .start => 0
  | .sendA _ => 0
  | .sendB _ => 0
  | .recvB _ => s.rx.setWidth 16
  | .stop => 0

/-- A primitive command after its primitive: the response, or on to the next step (R100, R101 to R106). -/
def settlePrimitive (p : Prim) : Progress × State → State
  | (.ended .ok, s) => s.respond 0 (p.data s)
  | (.ended o, s) => s.respond o.code 0
  | (.pending ph, s) => s.suspend (.primitive ph p)

/-- What a stage does with its primitive's success: stage 3 counts a byte sent, stage 6 stores the byte received
(R142, R152). -/
def Call.advance (c : Call) (s : State) : State :=
  match c.prim with
  | .start => s
  | .sendA _ => s
  | .sendB _ => s.advanceIdx
  | .recvB _ => s.appendRx.advanceIdx
  | .stop => s

/-- A transaction after one of its primitives: on with the rest, the end of R143, or on to the next step. -/
def settleCall (rest : State → State) (c : Call) (calls : List Call) : Progress × State → State
  | (.ended .ok, s) => rest (c.advance s)
  | (.ended o, s) => s.finish (o.remap s.stage)
  | (.pending ph, s) => s.suspend (.transaction ph c calls)

/-- The stages of a transaction, in order, to the first failure (R142, R143, R146). -/
def runCalls : List Call → State → State
  | [], s => s.finish 0
  | c :: calls, s => settleCall (runCalls calls) c calls (runPrim c.prim (s.enterStage c.stage))

/-- A primitive command (R100). -/
def runPrimitiveCommand (p : Prim) (s : State) : State := settlePrimitive p (runPrim p s.accept)

/-- A transaction from its first stage (R142, R153, R154). -/
def runTransaction (calls : List Call) (s : State) : State := runCalls calls s.leaveStages

/-- The receives among a list of calls. -/
def receivesIn (calls : List Call) : Nat :=
  calls.countP fun c => match c.prim with
    | .recvB _ => true
    | _ => false

/-- Whether the bytes the running command may still receive fit the buffer (R64 (a)). -/
def Job.fits (s : State) : Job → Bool
  | .primitive _ _ => true
  | .transaction _ c rest =>
    receivesIn (c :: rest) = 0 || s.totalNat + receivesIn (c :: rest) ≤ s.params.capacity

/-- The running command goes on from the wait it is in. -/
def Job.resume (s : State) : Job → State
  | .primitive ph p => settlePrimitive p (resumePrim ph p s)
  | .transaction ph c rest => settleCall (runCalls rest) c rest (resumePrim ph c.prim s)

/-- A busy block's step: the running command goes on (R70, R125). -/
def continueCommand (s : State) : Host.Outcome State Fault Refusal :=
  match s.job with
  | none => .fault .positionLost
  | some j => if j.fits s then .next (j.resume s) else .fault .bufferOverrun

end Sys2Proof.Machine
end

