-- ==== Sys2Proof/Machine/Primitives.lean ====
section
/-! DEFINITION. The primitive commands START, SENDA, SENDB, RECVB.A, RECVB.N, STOP (spec/40_primitives.md). -/
namespace Sys2Proof.Machine

/-- START (R101). -/
def execStart (s : State) : Host.Outcome State Fault Refusal := .next (runPrimitiveCommand .start s)

/-- SENDA `b` (R102). -/
def execSenda (b : Byte) (s : State) : Host.Outcome State Fault Refusal := .next (runPrimitiveCommand (.sendA b) s)

/-- SENDB `b` (R103). -/
def execSendb (b : Byte) (s : State) : Host.Outcome State Fault Refusal := .next (runPrimitiveCommand (.sendB b) s)

/-- RECVB.N (R105): acknowledge request 0. -/
def execRecvbN (s : State) : Host.Outcome State Fault Refusal := .next (runPrimitiveCommand (.recvB false) s)

/-- RECVB.A (R104): acknowledge request 1. -/
def execRecvbA (s : State) : Host.Outcome State Fault Refusal := .next (runPrimitiveCommand (.recvB true) s)

/-- STOP (R106). -/
def execStop (s : State) : Host.Outcome State Fault Refusal := .next (runPrimitiveCommand .stop s)

end Sys2Proof.Machine
end

