-- ==== Sys2Proof/Machine/Read.lean ====
section
/-! DEFINITION. The read transactions READ, WRRD.P8 and WRRD.P16 (spec/43_read.md). -/
namespace Sys2Proof.Machine

/-- `WriteReadTxn(a, ptr, n)` (R154): the buffer is cleared first (R150), the count normalised (R151). -/
def writeReadTxn (a : BusAddress) (ptr : List Byte) (n : Word16) (s : State) : State :=
  runTransaction (writeReadCalls a ptr (normalise s.params.capacity n)) s.accept.clearBuffer

/-- READ `a, n` (R153): the buffer is cleared first (R150), the count normalised (R151). -/
def execRead (a : BusAddress) (n : Word16) (s : State) : Host.Outcome State Fault Refusal :=
  .next (runTransaction (readCalls a (normalise s.params.capacity n)) s.accept.clearBuffer)

/-- WRRD.P8 `a, p, n` (R154). -/
def execWrrdP8 (a : BusAddress) (p : Byte) (n : Word16) (s : State) : Host.Outcome State Fault Refusal :=
  .next (writeReadTxn a (pointerBytes8 p) n s)

/-- WRRD.P16 `a, p, n` (R155). -/
def execWrrdP16 (a : BusAddress) (p : Word16) (n : Word16) (s : State) : Host.Outcome State Fault Refusal :=
  .next (writeReadTxn a (pointerBytes16 p) n s)

end Sys2Proof.Machine
end

