-- ==== Sys2Proof/Machine/Write.lean ====
section
/-! DEFINITION. The write transactions WRITE.P8 and WRITE.P16 (spec/42_write.md). -/
namespace Sys2Proof.Machine

/-- `WriteTxn(a, ptr, d)` (R142). -/
def writeTxn (a : BusAddress) (ptr d : List Byte) (s : State) : State :=
  runTransaction (writeCalls a (ptr ++ d)) s.accept

/-- WRITE.P8 `a, p, d` (R140). -/
def execWriteP8 (a : BusAddress) (p : Byte) (d : List Byte) (s : State) : Host.Outcome State Fault Refusal :=
  .next (writeTxn a (pointerBytes8 p) d s)

/-- WRITE.P16 `a, p, d` (R141). -/
def execWriteP16 (a : BusAddress) (p : Word16) (d : List Byte) (s : State) : Host.Outcome State Fault Refusal :=
  .next (writeTxn a (pointerBytes16 p) d s)

end Sys2Proof.Machine
end

