-- ==== Sys2Proof/Machine/Dispatch.lean ====
section
/-! DEFINITION. One arm per command: the direct call of its meaning. -/
namespace Sys2Proof.Machine

def exec (i : Instr) (s : State) : Host.Outcome State Fault Refusal :=
  match i with
  | .start => Sys2Proof.Machine.execStart s
  | .senda b => Sys2Proof.Machine.execSenda b s
  | .sendb b => Sys2Proof.Machine.execSendb b s
  | .recvbN => Sys2Proof.Machine.execRecvbN s
  | .recvbA => Sys2Proof.Machine.execRecvbA s
  | .stop => Sys2Proof.Machine.execStop s
  | .writeP8 a p d => Sys2Proof.Machine.execWriteP8 a p d s
  | .writeP16 a p d => Sys2Proof.Machine.execWriteP16 a p d s
  | .read a n => Sys2Proof.Machine.execRead a n s
  | .wrrdP8 a p n => Sys2Proof.Machine.execWrrdP8 a p n s
  | .wrrdP16 a p n => Sys2Proof.Machine.execWrrdP16 a p n s
  | .avail => Sys2Proof.Machine.execAvail s
  | .recv => Sys2Proof.Machine.execRecv s
  | .setto t => Sys2Proof.Machine.execSetto t s
  | .getto => Sys2Proof.Machine.execGetto s

end Sys2Proof.Machine
end

