-- ==== Sys2Proof/Machine/Port.lean ====
section
/-! DEFINITION. The command port (spec/30_encoding.md R70, R88): what an idle block does with the packet presented. -/
namespace Sys2Proof.Machine

/-- An idle block: the packet presented is accepted and run, or refused; with none presented nothing happens
(R70, R88, R207, R220). -/
def servePort (s : State) : Host.Outcome State Fault Refusal :=
  match s.offers with
  | [] => .next s
  | pkt :: rest =>
    match decode pkt with
    | .ok i => exec i (s.setOffers rest)
    | .error _ => .next (s.setOffers rest).refuse

/-- `s` with a packet presented that the next step accepts: it stands first at the port, the block is idle and not in
reset. -/
def State.present (s : State) (pkt : List Byte) : State :=
  { s with offers := pkt :: s.offers, busy := false, job := none, resetLine := false }

end Sys2Proof.Machine
end

