-- ==== Sys2Proof/Machine/Step.lean ====
section
/-! DEFINITION. One step: reset first (spec/70_reset_and_hazards.md R220, R221), then the running command, then the port
(spec/30_encoding.md R70). -/
namespace Sys2Proof.Machine

/-- One step of the block. -/
def step (s : State) : Host.Outcome State Fault Refusal :=
  if s.resetLine then .next s.takeReset
  else if s.busy then continueCommand s
  else servePort s

/-- `s` with the opcode table's word presented at the command port (log 14). -/
def State.withFetchWord (s : State) (nbits w : Nat) : State := s.present (tablePacket nbits w)

end Sys2Proof.Machine
end

