-- ==== Sys2Proof/Safety.lean ====
section
/-! DEFINITION. The terms claims are stated in: the projections of the trace (spec/95_test_vectors.md section 0), what an
answer of the environment amounts to, the stages of each transaction, and the invariant of the block
(spec/10_state.md R22, R26, R27, R64). -/
namespace Sys2Proof.Machine

/-- A poll of one of the controller's two flags. -/
def HbOp.isPoll : HbOp → Bool
  | .complete => true
  | .stopBusy => true
  | _ => false

/-- A read of the controller: a poll, a status or a data byte (R120). -/
def HbOp.isRead : HbOp → Bool
  | .status => true
  | .rxData => true
  | o => o.isPoll

/-- The projection `full`: everything but the polls. -/
def fullTrace (t : List HbOp) : List HbOp := t.filter fun o => !o.isPoll

/-- The projection `ops`: `full` without the reads of status and data. -/
def busOps (t : List HbOp) : List HbOp := t.filter fun o => !o.isRead

end Sys2Proof.Machine

namespace Sys2Proof

/-- How the guarded wait of a primitive started with this answer stands after the answer's polls (R124). -/
def Answer.waitEnd (a : Answer) (on : Machine.WaitOn) (timeout : Word16) : Machine.WaitEnd :=
  (Machine.pollWait on timeout a.now0 a.polls).1

/-- How many polls that wait makes in this step. -/
def Answer.pollCount (a : Answer) (on : Machine.WaitOn) (timeout : Word16) : Nat :=
  (Machine.pollWait on timeout a.now0 a.polls).2

/-- The wait of this primitive, started with this answer (R100, R106). -/
def Answer.primWait (a : Answer) (timeout : Word16) : Machine.Prim → Machine.WaitEnd
  | .start => a.waitEnd .complete timeout
  | .sendA _ => a.waitEnd .complete timeout
  | .sendB _ => a.waitEnd .complete timeout
  | .recvB _ => a.waitEnd .complete timeout
  | .stop => a.waitEnd .stopDone timeout

/-- The environment answers this primitive with success: its wait is done and, but for a stop, the status is in its
success set (R100). -/
def Answer.grants (a : Answer) (c : StatusCodes) (timeout : Word16) (p : Machine.Prim) : Bool :=
  a.primWait timeout p = .done && (p = .stop || Machine.judge c p a.status = .success)

/-- Each answer grants the primitive it is for. -/
def grantsAll (c : StatusCodes) (timeout : Word16) : List Machine.Prim → List Answer → Bool
  | [], [] => true
  | p :: ps, a :: as => a.grants c timeout p && grantsAll c timeout ps as
  | _, _ => false

/-- Whether the opcode's format has an address operand (R71, R79). -/
def hasAddress (op : Byte) : Bool := op ∈ [0x10, 0x11, 0x20, 0x30, 0x31]

/-- The packet length R73 gives an opcode and the packet's length field; none for a reserved opcode (R74). A packet too
short to hold the field gets a length it does not have. -/
def ruleLength (pkt : List Byte) : Option Nat :=
  match (pkt.headD 0).toNat with
  | 0x01 | 0x04 | 0x05 | 0x06 | 0x40 | 0x41 | 0x51 => some 1
  | 0x02 | 0x03 => some 2
  | 0x50 => some 3
  | 0x20 => some 4
  | 0x30 => some 5
  | 0x31 => some 6
  | 0x10 => some (5 + (256 * (pkt.getD 3 0).toNat + (pkt.getD 4 0).toNat))
  | 0x11 => some (6 + (256 * (pkt.getD 4 0).toNat + (pkt.getD 5 0).toNat))
  | _ => none

end Sys2Proof

namespace Sys2Proof.Machine

/-- The answers the environment gives to the next `n` actions. -/
def State.upcoming : Nat → State → List Answer
  | 0, _ => []
  | n + 1, s => s.answer :: State.upcoming n s.dropAnswer

/-- The environment after its next `n` answers. -/
def State.dropAnswers : Nat → State → State
  | 0, s => s
  | n + 1, s => State.dropAnswers n s.dropAnswer

/-- The state once a primitive has written `t0`, issued its operation and made its polls of this step (R100, R124). -/
def State.polled (s : State) (op : HbOp) (on : WaitOn) : State :=
  { s.dropAnswer with
    t0 := s.answer.now0
    hbTrace := s.hbTrace ++ op :: List.replicate (s.answer.pollCount on s.timeoutMs) on.pollOp }

/-- The stages of a transaction command for capacity `c`, in order (R26's table); none for the other commands. -/
def transactionCalls (c : Nat) : Instr → List Call
  | .start => []
  | .senda _ => []
  | .sendb _ => []
  | .recvbN => []
  | .recvbA => []
  | .stop => []
  | .writeP8 a p d => writeCalls a (pointerBytes8 p ++ d)
  | .writeP16 a p d => writeCalls a (pointerBytes16 p ++ d)
  | .read a n => readCalls a (normalise c n)
  | .wrrdP8 a p n => writeReadCalls a (pointerBytes8 p) (normalise c n)
  | .wrrdP16 a p n => writeReadCalls a (pointerBytes16 p) (normalise c n)
  | .avail => []
  | .recv => []
  | .setto _ => []
  | .getto => []

/-- The primitives a command runs when each of them is granted, in order; none for the consumer and timeout commands. -/
def commandPrims (c : Nat) : Instr → List Prim
  | .start => [.start]
  | .senda b => [.sendA b]
  | .sendb b => [.sendB b]
  | .recvbN => [.recvB false]
  | .recvbA => [.recvB true]
  | .stop => [.stop]
  | i => (transactionCalls c i).map Call.prim

/-- A response handed back, the block idle (R86, R70). -/
def State.answered (s : State) (result : Byte) (data : Word16) : State :=
  { s with busy := false, job := none, responses := s.responses ++ [⟨false, result, data⟩] }

/-- The read-type transactions (R23). -/
def isReadType : Instr → Bool
  | .read _ _ => true
  | .wrrdP8 _ _ _ => true
  | .wrrdP16 _ _ _ => true
  | _ => false

/-- The primitive in progress and the ones after it. -/
def Job.prims : Job → List Prim
  | .primitive _ p => [p]
  | .transaction _ c rest => (c :: rest).map Call.prim

/-- The wait the running command is in. -/
def Job.phase : Job → Phase
  | .primitive ph _ => ph
  | .transaction ph _ _ => ph

/-- The flag the running command polls (R124, R109). -/
def Job.waitsOn (j : Job) : WaitOn :=
  match j.phase, j.prims with
  | .nackStop, _ => .stopDone
  | .action, .stop :: _ => .stopDone
  | .action, _ => .complete

/-- Whether a stage's primitive is a receive. -/
def Call.isReceive (c : Call) : Bool :=
  match c.prim with
  | .recvB _ => true
  | _ => false

/-- The bytes the controller delivers to the receives among these calls, in order, when each call takes one of these
answers (R152). -/
def receivedBytes : List Call → List Answer → List Byte
  | c :: calls, a :: answers =>
    if c.isReceive then a.rxData :: receivedBytes calls answers else receivedBytes calls answers
  | _, _ => []

/-- The calls of stage `k` among these. -/
def callsInStage (k : BitVec 3) (calls : List Call) : Nat := calls.countP fun c => c.stage = k

/-- The bytes done in the stage in progress and the calls of any one stage still to run never exceed the bound of
`idx` (R26). -/
def State.PositionBound (s : State) (calls : List Call) : Prop :=
  ∀ k : BitVec 3, callsInStage k calls + (if k = s.stage then s.idx.toNat else 0) ≤ 65537

/-- Every byte below `n` has been written. -/
def Memory.coversBelow (m : Memory) (n : Nat) : Prop := ∀ i, i < n → (Memory.read? m i).isSome

/-- Every byte written lies below `c`. -/
def Memory.within (m : Memory) (c : Nat) : Prop := ∀ i, (Memory.read? m i).isSome → i < c

/-- The buffer part of the invariant: canonical form, the written bytes cover `total` and lie inside the buffer, and
`available ≤ total ≤ C` (R22). -/
def State.BufferInv (s : State) : Prop :=
  Memory.wf s.buf = true ∧ Memory.coversBelow s.buf s.totalNat ∧ Memory.within s.buf s.params.capacity ∧
    s.availableNat ≤ s.totalNat ∧ s.totalNat ≤ s.params.capacity

/-- A command is in progress exactly while `busy` is 1 (R27). -/
def State.BusyInv (s : State) : Prop := s.busy = s.job.isSome

/-- Each primitive stands in a stage that runs it, and every stage is 1..7 (R26, R192). -/
def Call.wellStaged (c : Call) : Bool :=
  match c.prim with
  | .start => c.stage = 1 || c.stage = 4
  | .sendA _ => c.stage = 2 || c.stage = 5
  | .sendB _ => c.stage = 3
  | .recvB _ => c.stage = 6
  | .stop => c.stage = 7

/-- An inner stop is only ever waited for by a primitive that read a NACK status (R109). -/
def NackPathInv (s : State) (ph : Phase) (p : Prim) : Prop :=
  ph = .nackStop → judge s.params.codes p s.st = .nack

/-- The sequencer position (R26): (0, 0) outside a transaction, the stage in progress inside one, its last stage a stop,
room in the buffer for the receives still to come (R64), and in `idx` for the bytes still to count. -/
def State.PositionInv (s : State) : Prop :=
  match s.job with
  | none => s.stage = 0 ∧ s.idx = 0
  | some (.primitive ph p) => s.stage = 0 ∧ s.idx = 0 ∧ NackPathInv s ph p
  | some (.transaction ph c rest) =>
    s.stage = c.stage ∧ (c :: rest).all Call.wellStaged = true ∧ ((c :: rest).getLast?.map Call.prim) = some .stop ∧
      NackPathInv s ph c.prim ∧ s.totalNat + receivesIn (c :: rest) ≤ s.params.capacity ∧
      s.PositionBound (c :: rest)

/-- `u` is `s` but for values of `t0`, `st` and `rx` that no later step reads: `t0` counts only while a command is in
progress, `st` only while that command is in the stop of a NACK path (R24, R25). -/
def State.SameButUnread (s u : State) : Prop :=
  ∃ (t0 : Millis) (st rx : Byte), u = { s with t0 := t0, st := st, rx := rx } ∧
    ∀ j, s.job = some j → t0 = s.t0 ∧ (j.phase = .nackStop → st = s.st)

/-- The invariant of the block. -/
def State.Inv (s : State) : Prop := s.BufferInv ∧ s.BusyInv ∧ s.PositionInv

/-- Commands run one after another, each from the state the one before left; none where one of them stops. -/
def runCommands : List Instr → State → Option State
  | [], s => some s
  | i :: is, s =>
    match exec i s with
    | .next t => runCommands is t
    | .fault _ => none
    | .refused _ => none

end Sys2Proof.Machine
end

