-- ==== Sys2Proof/Certificates/Slice0/Obligations.lean ====
section
/-! DEFINITION. The statements about the sequencer, each from rules of spec/. Answers of the environment (settled ones or
free ones, log 5) are hypotheses on the state: `s.answer` is the next, `s.upcoming n` the next `n`. -/

open Sys2Proof Sys2Proof.Machine

/-! ### The port, decoding, encoding -/

/-- R70, R58: an idle block out of reset runs exactly the command the presented packet decodes to; the packet leaves the
port, and nothing else is added around exec. -/
def Obligations.StepRunsDecodedCommand : Prop :=
  ∀ (s : State) (pkt : List Byte) (rest : List (List Byte)) (i : Instr),
    s.resetLine = false → s.busy = false → s.offers = pkt :: rest → decode pkt = .ok i →
      step s = exec i { s with offers := rest }

/-- R71, R74: packets of spec/95_test_vectors.md table D, one a format, decode to the commands they stand for. -/
def Obligations.PacketWordsDecode : Prop :=
  decode [0x01] = .ok .start ∧ decode [0x02, 0xA0] = .ok (.senda 0xA0) ∧
    decode [0x10, 0x50, 0x10, 0x00, 0x02, 0xAA, 0xBB] = .ok (.writeP8 0x50 0x10 [0xAA, 0xBB]) ∧
    decode [0x11, 0x50, 0x01, 0x23, 0x00, 0x01, 0x7F] = .ok (.writeP16 0x50 0x0123 [0x7F]) ∧
    decode [0x20, 0x68, 0xFF, 0xFF] = .ok (.read 0x68 65535) ∧
    decode [0x30, 0x50, 0x10, 0x00, 0x03] = .ok (.wrrdP8 0x50 0x10 3) ∧
    decode [0x31, 0x50, 0x01, 0x23, 0x01, 0x00] = .ok (.wrrdP16 0x50 0x0123 256) ∧
    decode [0x50, 0x01, 0x00] = .ok (.setto 256) ∧ decode [0x51] = .ok .getto

/-- R71, R73, R74: a well-formed command's packet decodes to it, for every value of every operand. -/
def Obligations.DecodeOfEncode : Prop := ∀ i : Instr, i.wellFormed = true → decode (encode i) = .ok i

/-- R73, R88: a packet that decodes is the packet of its command, and the command is well formed: no bit of a legal packet
is ignored. -/
def Obligations.EncodeOfDecode : Prop :=
  ∀ (pkt : List Byte) (i : Instr), decode pkt = .ok i → encode i = pkt ∧ i.wellFormed = true

/-- R88: a packet (of at least one byte, R71) is illegal exactly when its opcode is reserved, or its length is not the one
R73 computes, or its address operand has bit 7 set, examined in this order; and an idle block answers an illegal packet
with `illegal = 1`, `result = 0`, `data = 0` and changes nothing else (no operation, no register, no byte). -/
def Obligations.IllegalPacketsRefused : Prop :=
  (∀ (op : Byte) (rest : List Byte),
      (decode (op :: rest) = .error .reservedOpcode ↔ ruleLength (op :: rest) = none) ∧
      (decode (op :: rest) = .error .badLength ↔
        ∃ n, ruleLength (op :: rest) = some n ∧ (op :: rest).length ≠ n) ∧
      (decode (op :: rest) = .error .addressBit7 ↔
        ruleLength (op :: rest) = some (op :: rest).length ∧ hasAddress op = true ∧ (rest.headD 0).getLsbD 7 = true)) ∧
    ∀ (s : State) (op : Byte) (tail : List Byte) (rest : List (List Byte)) (e : Reject),
      s.resetLine = false → s.busy = false → s.offers = (op :: tail) :: rest → decode (op :: tail) = .error e →
        step s = .next { s with offers := rest, responses := s.responses ++ [⟨true, 0, 0⟩] }

/-! ### Operands and tests -/

/-- R80: the wire address byte is the address shifted left by one with the direction in bit 0, `2a` and `2a + 1`; SENDA
sends its byte unchanged and looks at no bit of it. -/
def Obligations.WireAddressByte : Prop :=
  (∀ a : BusAddress,
      (slaW a).toNat = 2 * a.toNat ∧ (slaR a).toNat = 2 * a.toNat + 1 ∧
        (slaW a).getLsbD 0 = false ∧ (slaR a).getLsbD 0 = true ∧
        ∀ k, k < 7 → (slaW a).getLsbD (k + 1) = a.getLsbD k ∧ (slaR a).getLsbD (k + 1) = a.getLsbD k) ∧
    slaW 0x50 = 0xA0 ∧ slaR 0x50 = 0xA1 ∧ slaW 0 = 0 ∧ slaR 0x7F = 0xFF ∧
    ∀ (b b' : Byte) (c : StatusCodes) (x : Byte),
      (Prim.sendA b).busOp = .transmit b ∧ judge c (.sendA b) x = judge c (.sendA b') x

/-- R82, R151: the count is normalised to 1 from 0, to `C` above `C` (silently, D21), and always
lies in 1..C. -/
def Obligations.CountNormalised : Prop :=
  ∀ (p : Params) (n : Word16),
    (n = 0 → normalise p.capacity n = 1) ∧ (p.capacity < n.toNat → normalise p.capacity n = p.capacity) ∧
      (n ≠ 0 → n.toNat ≤ p.capacity → normalise p.capacity n = n.toNat) ∧
      1 ≤ normalise p.capacity n ∧ normalise p.capacity n ≤ p.capacity

/-- R26: the stages of each transaction, in the source's fixed numbering; every primitive stands in a stage R192 names
for it. -/
def Obligations.StageSequences : Prop :=
  ∀ (a : BusAddress) (bytes : List Byte) (n : Nat),
    (writeCalls a bytes).map Call.stage = [1, 2] ++ List.replicate bytes.length 3 ++ [7] ∧
      (readCalls a n).map Call.stage = [1, 5] ++ List.replicate n 6 ++ [7] ∧
      (writeReadCalls a bytes n).map Call.stage =
        [1, 2] ++ List.replicate bytes.length 3 ++ [4, 5] ++ List.replicate n 6 ++ [7] ∧
      (writeCalls a bytes ++ readCalls a n ++ writeReadCalls a bytes n).all Call.wellStaged = true

/-- R195, R84: the success set and the NACK set of a primitive are disjoint, for every legal configuration. -/
def Obligations.StatusSetsDisjoint : Prop :=
  ∀ (p : Params) (q : Prim) (x : Byte), x ∈ successSet p.codes q → x ∉ nackSet p.codes q

/-- R123: elapsed time is taken modulo 2^32, so it is the true number of milliseconds across a wrap of the counter; the
guard has expired when it is enabled and the elapsed time has reached the timeout. -/
def Obligations.ExpiryIsModular : Prop :=
  (∀ (timeout : Word16) (t0 now : Millis),
      (elapsed t0 now).toNat = (now.toNat + 2 ^ 32 - t0.toNat) % 2 ^ 32 ∧
        (expired timeout t0 now = true ↔ timeout ≠ 0 ∧ timeout.toNat ≤ (elapsed t0 now).toNat)) ∧
    ∀ (start waited : Nat), waited < 2 ^ 32 →
      (elapsed (BitVec.ofNat 32 start) (BitVec.ofNat 32 (start + waited))).toNat = waited

/-- R124, R126 (D13): a guarded wait is done at the first poll that finds the predicate true if no earlier poll had
expired, times out at the first expired poll if it and every earlier poll found the predicate false, and goes on otherwise. It
issues exactly one poll operation for each poll it makes (those up to and with the deciding one, or all), one force-reset
exactly when it times out, and writes no register. -/
def Obligations.GuardedWaitDecides : Prop :=
  ∀ (s : State) (on : WaitOn) (polls : List Poll),
    let quiet := fun q : Poll => on.holds q.flag = false ∧ expired s.timeoutMs s.t0 q.now = false
    let polledOnce := fun n => s.hbTrace ++ List.replicate n on.pollOp
    ((s.guardedWait on polls).1 = .done ↔
        ∃ before p after, polls = before ++ p :: after ∧ (∀ q ∈ before, quiet q) ∧ on.holds p.flag = true) ∧
      ((s.guardedWait on polls).1 = .timeout ↔
        ∃ before p after, polls = before ++ p :: after ∧ (∀ q ∈ before, quiet q) ∧ on.holds p.flag = false ∧
          expired s.timeoutMs s.t0 p.now = true) ∧
      ((s.guardedWait on polls).1 = .undecided ↔ ∀ q ∈ polls, quiet q) ∧
      ((∀ q ∈ polls, quiet q) → (s.guardedWait on polls).2 = { s with hbTrace := polledOnce polls.length }) ∧
      ∀ before p after, polls = before ++ p :: after → (∀ q ∈ before, quiet q) →
        (on.holds p.flag = true →
            (s.guardedWait on polls).2 = { s with hbTrace := polledOnce (before.length + 1) }) ∧
          (on.holds p.flag = false → expired s.timeoutMs s.t0 p.now = true →
            (s.guardedWait on polls).2 =
              { s with hbTrace := polledOnce (before.length + 1) ++ [.forceReset], busHeld := false })

/-- Two answers to one wait, as one: the polls of both, and what the second says once the wait is done. -/
def Sys2Proof.Claim.joinAnswers (a b : Answer) : Answer := ⟨a.now0, a.polls ++ b.polls, b.status, b.rxData⟩

open Sys2Proof.Claim

/-- The command `i`, answered by `lead`, `a`, `b` and then `rest`, is left waiting by `a`, and the step that goes on with
`b` leaves what `i` leaves when the polls of both stand in one answer. -/
def Sys2Proof.Claim.CutAfter (i : Instr) (s : State) (lead : List Answer) (a b : Answer) (rest : List Answer) : Prop :=
  ∃ t, exec i { s with env := lead ++ a :: b :: rest } = .next t ∧ t.busy = true ∧ t.responses = s.responses ∧
    step t = exec i { s with env := lead ++ joinAnswers a b :: rest }

/-- R124 ("The number of iterations and the time between two polls are not specified"), and the model's log 7: where a
step ends inside a wait cannot be observed, be it the wait of the primitive after the granted ones in `lead` or that of
the stop of its NACK path. -/
def Obligations.CutOfWaitUnobservable : Prop :=
  ∀ (i : Instr) (s : State) (lead rest : List Answer) (a b : Answer) (p : Prim),
    s.resetLine = false →
      grantsAll s.params.codes s.timeoutMs ((commandPrims s.params.capacity i).take lead.length) lead = true →
        (commandPrims s.params.capacity i)[lead.length]? = some p →
          (a.primWait s.timeoutMs p = .undecided → CutAfter i s lead a b rest) ∧
            ∀ n : Answer, n.primWait s.timeoutMs p = .done → judge s.params.codes p n.status = .nack →
              a.waitEnd .stopDone s.timeoutMs = .undecided → CutAfter i s (lead ++ [n]) a b rest

/-- R125, R199: with the guard disabled a busy block whose controller does not satisfy the wait goes on polling for any
number of steps: it never responds, runs no recovery, accepts nothing, and keeps its command and registers. -/
def Obligations.DisabledGuardHangs : Prop :=
  ∀ (n : Nat) (s : State) (j : Job),
    s.busy = true → s.job = some j → j.fits s = true → s.resetLine = false → s.timeoutMs = 0 →
      (∀ a ∈ s.upcoming n, ∀ q ∈ a.polls, j.waitsOn.holds q.flag = false) →
        ∃ t, Sys2Proof.core.run n s = .next t ∧ t.busy = true ∧ t.job = s.job ∧ t.responses = s.responses ∧
          t.offers = s.offers ∧ t.nReset = s.nReset ∧ t.t0 = s.t0 ∧ t.st = s.st ∧ t.rx = s.rx ∧ t.stage = s.stage ∧
          t.idx = s.idx ∧ t.buf = s.buf ∧ t.totalNat = s.totalNat ∧ t.availableNat = s.availableNat ∧ t.timeoutMs = 0

/-! ### The primitive commands -/

/-- R101: START, every outcome it ends with. Where its wait is done and the status is one of its two success values it
responds 0 and holds the bus (D28); any other status, lost arbitration or not (D17), is recovered and returned; an
expired wait is recovered and answered 1. Nothing else changes. A wait that is not decided yet: `UndecidedWaitSuspends`. -/
def Obligations.StartCommand : Prop :=
  decode [0x01] = .ok .start ∧
  ∀ s : State,
    let a := s.answer
    let p := s.polled .issueStart .complete
    (a.waitEnd .complete s.timeoutMs = .done → (a.status = s.params.codes.start ∨ a.status = s.params.codes.repStart) →
        exec .start s = .next
          (State.answered { p with st := a.status, hbTrace := p.hbTrace ++ [.status], busHeld := true } 0 0)) ∧
      (a.waitEnd .complete s.timeoutMs = .done → a.status ≠ s.params.codes.start → a.status ≠ s.params.codes.repStart →
        exec .start s = .next
          (State.answered { p with st := a.status, hbTrace := p.hbTrace ++ [.status, .forceReset], busHeld := false }
            a.status 0)) ∧
      (a.waitEnd .complete s.timeoutMs = .timeout →
        exec .start s = .next (State.answered { p with hbTrace := p.hbTrace ++ [.forceReset], busHeld := false } 1 0))

/-- What R102 and R103 say of a send primitive with success set `ack` and NACK set `nack`, as the command `i`. -/
def Sys2Proof.Claim.SendCommandMeets (i : Instr) (op : HbOp) (ack nack : StatusCodes → List Byte) : Prop :=
  ∀ s : State,
    let a := s.answer
    let p := s.polled op .complete
    let c := s.params.codes
    let d : State := { p with st := a.status, hbTrace := p.hbTrace ++ [.status] }
    let b := d.answer
    let r := d.polled .issueStop .stopDone
    (a.waitEnd .complete s.timeoutMs = .done → a.status ∈ ack c →
        exec i s = .next (State.answered d 0 0)) ∧
      (a.waitEnd .complete s.timeoutMs = .done → a.status ∈ nack c → b.waitEnd .stopDone s.timeoutMs = .done →
        exec i s = .next (State.answered { r with busHeld := false } a.status 0)) ∧
      (a.waitEnd .complete s.timeoutMs = .done → a.status ∈ nack c → b.waitEnd .stopDone s.timeoutMs = .timeout →
        exec i s = .next (State.answered { r with hbTrace := r.hbTrace ++ [.forceReset], busHeld := false }
          a.status 0)) ∧
      (a.waitEnd .complete s.timeoutMs = .done → a.status ∉ ack c → a.status ∉ nack c →
        exec i s = .next (State.answered { d with hbTrace := d.hbTrace ++ [.forceReset], busHeld := false }
          a.status 0)) ∧
      (a.waitEnd .complete s.timeoutMs = .timeout →
        exec i s = .next (State.answered { p with hbTrace := p.hbTrace ++ [.forceReset], busHeld := false } 1 0))

/-- R102, R109: SENDA `b`, every outcome it ends with: an address ACK of either variant (D16) is success; an address NACK
of either variant is followed by a whole stop of its own, whose outcome is dropped (D18), and returned; anything else is
recovered and returned; an expired wait is recovered and answered 1. Waits not decided yet: `UndecidedWaitSuspends`. -/
def Obligations.SendAddressCommand : Prop :=
  ∀ b : Byte, decode [0x02, b] = .ok (.senda b) ∧
    SendCommandMeets (.senda b) (.transmit b) (fun c => [c.mtSlaAck, c.mrSlaAck])
      (fun c => [c.mtSlaNack, c.mrSlaNack])

/-- R103, R109: SENDB `b`, every outcome it ends with: as SENDA with the data ACK and the data NACK (its stop's outcome
dropped, D18); an address code is "other". Waits not decided yet: `UndecidedWaitSuspends`. -/
def Obligations.SendByteCommand : Prop :=
  ∀ b : Byte, decode [0x03, b] = .ok (.sendb b) ∧
    SendCommandMeets (.sendb b) (.transmit b) (fun c => [c.mtDataAck]) (fun c => [c.mtDataNack])

/-- What R104 says of a receive with acknowledge request `ack` and expected status `want`, as the command `i`. -/
def Sys2Proof.Claim.ReceiveCommandMeets (i : Instr) (ack : Bool) (want : StatusCodes → Byte) : Prop :=
  ∀ s : State,
    let a := s.answer
    let p := s.polled (.receive ack) .complete
    (a.waitEnd .complete s.timeoutMs = .done → a.status = want s.params.codes →
        exec i s = .next
          (State.answered { p with st := a.status, rx := a.rxData, hbTrace := p.hbTrace ++ [.status, .rxData] }
            0 (a.rxData.setWidth 16))) ∧
      (a.waitEnd .complete s.timeoutMs = .done → a.status ≠ want s.params.codes →
        exec i s = .next
          (State.answered { p with st := a.status, hbTrace := p.hbTrace ++ [.status, .forceReset], busHeld := false }
            a.status 0)) ∧
      (a.waitEnd .complete s.timeoutMs = .timeout →
        exec i s = .next (State.answered { p with hbTrace := p.hbTrace ++ [.forceReset], busHeld := false } 1 0))

/-- R104: RECVB.A, every outcome it ends with: success only on the status of a byte received with acknowledge, and then
the byte is taken (D32) and returned; any other status is recovered (D17) and returned with data 0; the ReceiveBuffer is
not touched. A wait not decided yet: `UndecidedWaitSuspends`. -/
def Obligations.ReceiveAckCommand : Prop :=
  decode [0x05] = .ok .recvbA ∧ ReceiveCommandMeets .recvbA true StatusCodes.mrDataAck

/-- R105: RECVB.N, every outcome it ends with: as RECVB.A with the roles of the two data statuses exchanged. -/
def Obligations.ReceiveNoAckCommand : Prop :=
  decode [0x04] = .ok .recvbN ∧ ReceiveCommandMeets .recvbN false StatusCodes.mrDataNack

/-- R106: STOP, every outcome it ends with: success is stop-busy clearing before the timeout; no status is read and `st`
stays. A wait not decided yet: `UndecidedWaitSuspends`. -/
def Obligations.StopCommand : Prop :=
  decode [0x06] = .ok .stop ∧
  ∀ s : State,
    let a := s.answer
    let p := s.polled .issueStop .stopDone
    (a.waitEnd .stopDone s.timeoutMs = .done →
        exec .stop s = .next (State.answered { p with busHeld := false } 0 0)) ∧
      (a.waitEnd .stopDone s.timeoutMs = .timeout →
        exec .stop s = .next (State.answered { p with hbTrace := p.hbTrace ++ [.forceReset], busHeld := false } 1 0))

/-- The model's cut (log 7, and log 10 for `bus_held`, which stays as it was): a primitive command whose wait, or the
stop of whose NACK path, is not decided by the polls of this step leaves the block busy with the command in progress and
that wait named; no response, no recovery, nothing else changed. -/
def Obligations.UndecidedWaitSuspends : Prop :=
  ∀ (i : Instr) (q : Prim) (s : State),
    (i, q) ∈ [(.start, .start), (.recvbA, .recvB true), (.recvbN, .recvB false), (.stop, .stop)] ∨
        (∃ b, (i, q) = (.senda b, .sendA b)) ∨ (∃ b, (i, q) = (.sendb b, .sendB b)) →
      let a := s.answer
      let p := s.polled q.busOp (if q = .stop then .stopDone else .complete)
      let d : State := { p with st := a.status, hbTrace := p.hbTrace ++ [.status] }
      (a.primWait s.timeoutMs q = .undecided →
          exec i s = .next { p with busy := true, job := some (.primitive .action q) }) ∧
        (a.primWait s.timeoutMs q = .done → judge s.params.codes q a.status = .nack →
          d.answer.waitEnd .stopDone s.timeoutMs = .undecided →
            exec i s = .next
              { d.polled .issueStop .stopDone with busy := true, job := some (.primitive .nackStop q) })

/-- R23, R33: whatever the outcome, a primitive command leaves the buffer, its counters, the timeout, the position, the
parameters, the reset line and the packets still presented as they were; STOP leaves `st` and `rx`, and only a receive
writes `rx`. -/
def Obligations.PrimitiveCommandsFrame : Prop :=
  ∀ (i : Instr) (s t : State),
    (i = .start ∨ (∃ b, i = .senda b) ∨ (∃ b, i = .sendb b) ∨ i = .recvbA ∨ i = .recvbN ∨ i = .stop) →
      exec i s = .next t →
        t.buf = s.buf ∧ t.totalNat = s.totalNat ∧ t.availableNat = s.availableNat ∧ t.timeoutMs = s.timeoutMs ∧
          t.stage = s.stage ∧ t.idx = s.idx ∧ t.params = s.params ∧ t.resetLine = s.resetLine ∧ t.offers = s.offers ∧
          (i = .stop → t.st = s.st) ∧ (i ≠ .recvbA → i ≠ .recvbN → t.rx = s.rx)

/-! ### The transactions -/

/-- What R145 says of the write `i` to address `a` of the bytes `bytes` (pointer bytes, then payload). -/
def Sys2Proof.Claim.WriteSucceeds (i : Instr) (a : BusAddress) (bytes : List Byte) : Prop :=
  ∀ s : State,
    grantsAll s.params.codes s.timeoutMs ([.start, .sendA (slaW a)] ++ bytes.map Prim.sendB ++ [.stop])
        (s.upcoming (bytes.length + 3)) = true →
      ∃ t, exec i s = .next t ∧ t.responses = s.responses ++ [⟨false, 0, 0⟩] ∧
        fullTrace t.hbTrace = fullTrace s.hbTrace ++ [.issueStart, .status, .transmit (slaW a), .status] ++
          bytes.flatMap (fun b => [.transmit b, .status]) ++ [.issueStop] ∧
        busOps t.hbTrace = busOps s.hbTrace ++ [.issueStart, .transmit (slaW a)] ++ bytes.map HbOp.transmit ++
          [.issueStop] ∧
        t.nReset = s.nReset ∧ t.busHeld = false ∧ t.busy = false ∧ t.job = none ∧ t.stage = 0 ∧ t.idx = 0 ∧
        t.buf = s.buf ∧ t.totalNat = s.totalNat ∧ t.availableNat = s.availableNat ∧ t.timeoutMs = s.timeoutMs ∧
        t.rx = s.rx ∧ t.params = s.params ∧ t.offers = s.offers ∧ t.resetLine = s.resetLine ∧
        t.env = (s.dropAnswers (bytes.length + 3)).env ∧ t.draws = (s.dropAnswers (bytes.length + 3)).draws

/-- R145, R140, R141, R144, R81 (D14, D28): when every primitive is granted, WRITE.P8 and WRITE.P16 (an empty payload
included) respond 0, having issued one start, the write address, the pointer bytes most significant first, the payload in order and
one stop, with no reset; the bus is not held at the end and the ReceiveBuffer is untouched. -/
def Obligations.WriteTransactionSucceeds : Prop :=
  (∀ (a : BusAddress) (p : Byte) (d : List Byte), WriteSucceeds (.writeP8 a p d) a (p :: d)) ∧
    ∀ (a : BusAddress) (p : Word16) (d : List Byte),
      WriteSucceeds (.writeP16 a p d) a (p.extractLsb' 8 8 :: p.extractLsb' 0 8 :: d)

/-- What R159 says of the read-type command `i` that begins with the primitives `lead` and receives `n` bytes, with the
last received byte in `rx`, the received bytes alone stored, and every other byte of the buffer as before. -/
def Sys2Proof.Claim.ReadSucceeds (i : Instr) (lead : List Prim) (n : Nat) (s : State) : Prop :=
  grantsAll s.params.codes s.timeoutMs
      (lead ++ List.replicate (n - 1) (Prim.recvB true) ++ [.recvB false, .stop]) (s.upcoming (lead.length + n + 1)) =
      true →
    ∃ t, exec i s = .next t ∧ t.responses = s.responses ++ [⟨false, 0, 0⟩] ∧
      busOps t.hbTrace = busOps s.hbTrace ++ lead.map Prim.busOp ++ List.replicate (n - 1) (.receive true) ++
        [.receive false, .issueStop] ∧
      t.nReset = s.nReset ∧ t.busHeld = false ∧ t.busy = false ∧ t.job = none ∧ t.stage = 0 ∧ t.idx = 0 ∧
      t.totalNat = n ∧ t.availableNat = t.totalNat ∧
      (∀ j, j < n → Memory.read? t.buf j = ((s.upcoming (lead.length + n + 1))[lead.length + j]?).map Answer.rxData) ∧
      (∀ j, n ≤ j → Memory.read? t.buf j = Memory.read? s.buf j) ∧
      Memory.read? t.buf (n - 1) = some t.rx ∧
      t.timeoutMs = s.timeoutMs ∧ t.params = s.params ∧ t.offers = s.offers ∧ t.resetLine = s.resetLine ∧
      t.env = (s.dropAnswers (lead.length + n + 1)).env ∧ t.draws = (s.dropAnswers (lead.length + n + 1)).draws

/-- R153, R152, R150, R151: when every primitive is granted, READ responds 0 having addressed the device for reading and
received the normalised count of bytes (D21), acknowledging all but the last; they are in the buffer in order, unread, in
place of what an earlier read left (D20). -/
def Obligations.DirectReadSucceeds : Prop :=
  ∀ (a : BusAddress) (n : Word16) (s : State),
    ReadSucceeds (.read a n) [.start, .sendA (slaR a)] (normalise s.params.capacity n) s

/-- R154, R155, R156, R81: when every primitive is granted, WRRD.P8 and WRRD.P16 respond 0 having set the pointer (most
significant byte first), started again without a stop (D28), and read the normalised count of bytes as READ does. -/
def Obligations.WriteThenReadSucceeds : Prop :=
  (∀ (a : BusAddress) (p : Byte) (n : Word16) (s : State),
      ReadSucceeds (.wrrdP8 a p n) [.start, .sendA (slaW a), .sendB p, .start, .sendA (slaR a)]
        (normalise s.params.capacity n) s) ∧
    ∀ (a : BusAddress) (p : Word16) (n : Word16) (s : State),
      ReadSucceeds (.wrrdP16 a p n)
        [.start, .sendA (slaW a), .sendB (p.extractLsb' 8 8), .sendB (p.extractLsb' 0 8), .start, .sendA (slaR a)]
        (normalise s.params.capacity n) s

/-- The transaction `i`, its first `k` stages' primitives granted, ends at the next one: result `r`, `extra` bus operations
after the operation of the failing primitive, `resets` lockup recoveries; a read keeps the bytes its granted receives
delivered before the failure, in order (R157), and a write leaves the buffer alone. -/
def Sys2Proof.Claim.EndsAtStage (i : Instr) (s : State) (k : Nat) (r : Byte) (extra : List HbOp) (resets : Nat) : Prop :=
  ∃ t, exec i s = .next t ∧ t.responses = s.responses ++ [⟨false, r, 0⟩] ∧
    busOps t.hbTrace = busOps s.hbTrace ++
      ((transactionCalls s.params.capacity i).take (k + 1)).map (fun c => c.prim.busOp) ++ extra ∧
    t.nReset = s.nReset + resets ∧ t.busHeld = false ∧ t.busy = false ∧ t.job = none ∧ t.stage = 0 ∧ t.idx = 0 ∧
    t.timeoutMs = s.timeoutMs ∧
    (isReadType i = true → t.totalNat = receivesIn ((transactionCalls s.params.capacity i).take k) ∧
      t.availableNat = t.totalNat ∧
      (∀ j, j < t.totalNat → Memory.read? t.buf j =
        (receivedBytes ((transactionCalls s.params.capacity i).take k) (s.upcoming k))[j]?) ∧
      ∀ j, t.totalNat ≤ j → Memory.read? t.buf j = Memory.read? s.buf j) ∧
    (isReadType i = false → t.totalNat = s.totalNat ∧ t.availableNat = s.availableNat ∧ t.buf = s.buf)

/-- R143, R192, R146: a timeout in any stage of any transaction responds with that stage's number, after one lockup
recovery and no later operation. -/
def Obligations.TransactionTimeoutGivesStage : Prop :=
  ∀ (i : Instr) (s : State) (k : Nat) (c : Call),
    (transactionCalls s.params.capacity i)[k]? = some c →
      grantsAll s.params.codes s.timeoutMs (((transactionCalls s.params.capacity i).take k).map Call.prim)
        (s.upcoming k) = true →
        (s.dropAnswers k).answer.primWait s.timeoutMs c.prim = .timeout →
          EndsAtStage i s k (c.stage.setWidth 8) [.forceReset] 1

/-- R143, R192, R107: a status that is neither success nor NACK ends any transaction in any status-reading stage with
that status, verbatim, after one lockup recovery (D17) and no later operation. -/
def Obligations.TransactionFaultGivesStatus : Prop :=
  ∀ (i : Instr) (s : State) (k : Nat) (c : Call),
    (transactionCalls s.params.capacity i)[k]? = some c →
      grantsAll s.params.codes s.timeoutMs (((transactionCalls s.params.capacity i).take k).map Call.prim)
        (s.upcoming k) = true →
        c.prim ≠ .stop → (s.dropAnswers k).answer.primWait s.timeoutMs c.prim = .done →
          judge s.params.codes c.prim (s.dropAnswers k).answer.status = .other →
            EndsAtStage i s k (s.dropAnswers k).answer.status [.forceReset] 1

/-- R143, R146, R109: an address or data NACK ends any transaction in stage 2, 3 or 5 with the stage's number; the last
operation is the stop of the NACK path, followed by one lockup recovery when that stop itself times out, and the result
is the same either way (D18). -/
def Obligations.TransactionNackGivesStage : Prop :=
  ∀ (i : Instr) (s : State) (k : Nat) (c : Call),
    (transactionCalls s.params.capacity i)[k]? = some c →
      grantsAll s.params.codes s.timeoutMs (((transactionCalls s.params.capacity i).take k).map Call.prim)
        (s.upcoming k) = true →
        (s.dropAnswers k).answer.primWait s.timeoutMs c.prim = .done →
          judge s.params.codes c.prim (s.dropAnswers k).answer.status = .nack →
            (c.stage = 2 ∨ c.stage = 3 ∨ c.stage = 5) ∧
              ((s.dropAnswers (k + 1)).answer.waitEnd .stopDone s.timeoutMs = .done →
                EndsAtStage i s k (c.stage.setWidth 8) [.issueStop] 0) ∧
              ((s.dropAnswers (k + 1)).answer.waitEnd .stopDone s.timeoutMs = .timeout →
                EndsAtStage i s k (c.stage.setWidth 8) [.issueStop, .forceReset] 1)

/-- R101, R143, R191: arbitration lost at the first start of any transaction returns the raw arbitration status and
triggers one recovery; nothing else is issued. -/
def Obligations.LostArbitrationAtStart : Prop :=
  ∀ (i : Instr) (s : State),
    transactionCalls s.params.capacity i ≠ [] → s.answer.waitEnd .complete s.timeoutMs = .done →
      s.answer.status = s.params.codes.lostArb →
        EndsAtStage i s 0 s.params.codes.lostArb [.forceReset] 1

/-- R157, R61, R152 (D20): whatever the outcome of a read-type command (a wait still going on included), the unread bytes
are exactly the bytes the controller delivered to its receives, in order, at most the normalised count, and every other byte
of the buffer is as before. A step that goes on with a transaction keeps the bytes received so far, appends the bytes
delivered in this step, and leaves every other byte. -/
def Obligations.ReadKeepsWhatItReceived : Prop :=
  (∀ (i : Instr) (s t : State), isReadType i = true → exec i s = .next t →
      let calls := transactionCalls s.params.capacity i
      t.availableNat = t.totalNat ∧ s.hbTrace.count .rxData + t.totalNat = t.hbTrace.count .rxData ∧
        t.totalNat ≤ receivesIn calls ∧ t.totalNat ≤ s.params.capacity ∧
        (∀ j, j < t.totalNat → (Memory.read? t.buf j).isSome ∧
          Memory.read? t.buf j = (receivedBytes calls (s.upcoming calls.length))[j]?) ∧
        (∀ j, t.totalNat ≤ j → Memory.read? t.buf j = Memory.read? s.buf j) ∧
        t.timeoutMs = s.timeoutMs ∧ t.params = s.params ∧ t.offers = s.offers ∧ t.resetLine = s.resetLine) ∧
    ∀ (s t : State) (ph : Phase) (c : Call) (rest : List Call),
      s.busy = true → s.resetLine = false → s.job = some (.transaction ph c rest) → step s = .next t →
        s.totalNat ≤ t.totalNat ∧
          s.hbTrace.count .rxData + t.totalNat = t.hbTrace.count .rxData + s.totalNat ∧
          (s.availableNat = s.totalNat → t.availableNat = t.totalNat) ∧
          (∀ j, s.totalNat ≤ j → j < t.totalNat → (Memory.read? t.buf j).isSome ∧
            Memory.read? t.buf j = (receivedBytes (c :: rest) (s.upcoming (rest.length + 1)))[j - s.totalNat]?) ∧
          ∀ j, j < s.totalNat ∨ t.totalNat ≤ j → Memory.read? t.buf j = Memory.read? s.buf j

/-- R147, R83: the ReceiveBuffer plays no part in a write or a primitive command. Run from a state with any other buffer
and counters it does the same, and leaves that buffer and those counters as they are, whatever its outcome. -/
def Obligations.BufferPlaysNoPart : Prop :=
  ∀ (i : Instr) (s t : State) (m : Memory) (total available : Nat),
    isReadType i = false → i ≠ .avail → i ≠ .recv → exec i s = .next t →
      t.buf = s.buf ∧ t.totalNat = s.totalNat ∧ t.availableNat = s.availableNat ∧
        exec i { s with buf := m, total := BitVec.ofNat _ total, available := BitVec.ofNat _ available } =
          .next { t with buf := m, total := BitVec.ofNat _ total, available := BitVec.ofNat _ available }

/-! ### The consumer commands and the timeout register -/

/-- R170: AVAIL returns the count and changes nothing, 0 after reset, so any number of AVAIL commands in a row return the
same count. -/
def Obligations.AvailCommand : Prop :=
  decode [0x40] = .ok .avail ∧
  (∀ s : State, exec .avail s = .next (State.answered s 0 s.availableWord) ∧ s.availableWord.toNat = s.availableNat) ∧
    (∀ p : Params, exec .avail (State.resetWith p) = .next (State.answered (State.resetWith p) 0 0)) ∧
    ∀ (n : Nat) (s : State), s.busy = false → s.job = none →
      runCommands (List.replicate n .avail) s =
        some { s with responses := s.responses ++ List.replicate n ⟨false, 0, s.availableWord⟩ }

/-- R171: RECV from an empty buffer returns 0 and changes nothing; else it returns the byte at `total - available`, the
oldest unread, and takes one from `available`; `total` and `buf` are not written. -/
def Obligations.RecvCommand : Prop :=
  decode [0x41] = .ok .recv ∧
  ∀ s : State,
    (s.availableNat = 0 →
        exec .recv s = .next (State.answered s 0 0)) ∧
      ∀ v : Byte, s.availableNat ≠ 0 → s.availableNat ≤ s.totalNat → s.totalNat ≤ s.params.capacity →
        Memory.read? s.buf (s.totalNat - s.availableNat) = some v →
          exec .recv s = .next (State.answered { s with available := s.available - 1 } 0 (v.setWidth 16))

/-- The model's choice (log 4, from U5 of spec/93_implementation_defined.md): RECV stops with a named fault where the byte
it should return was never written, and where the counters or the buffer's size admit no such byte. -/
def Obligations.RecvOfUnwrittenByteFaults : Prop :=
  ∀ s : State, s.availableNat ≠ 0 →
    (s.availableNat ≤ s.totalNat → s.totalNat - s.availableNat < s.params.capacity →
        Memory.read? s.buf (s.totalNat - s.availableNat) = none → exec .recv s = .fault .unwrittenBufferByte) ∧
      (s.totalNat < s.availableNat ∨ s.params.capacity ≤ s.totalNat - s.availableNat →
        exec .recv s = .fault .bufferIndexOutOfRange)

/-- R159, R171, R22 (E8): from a state that meets the buffer invariant, as many RECV commands as there are unread bytes
return them oldest first, and every further one returns 0 and leaves `available` at 0; `buf` and `total` stay. -/
def Obligations.RecvDrainsInOrder : Prop :=
  ∀ (s : State) (extra : Nat), s.BufferInv →
    ∃ t, runCommands (List.replicate (s.availableNat + extra) .recv) s = some t ∧
      t.responses = s.responses ++
        (List.range s.availableNat).map (fun k =>
          ⟨false, 0, ((Memory.read? s.buf (s.totalNat - s.availableNat + k)).getD 0).setWidth 16⟩) ++
        List.replicate extra ⟨false, 0, 0⟩ ∧
      t.availableNat = 0 ∧ t.totalNat = s.totalNat ∧ t.buf = s.buf ∧ t.timeoutMs = s.timeoutMs ∧ t.hbTrace = s.hbTrace

/-- R172: SETTO writes the timeout, every value legal, and nothing else; it responds 0. -/
def Obligations.SetTimeoutCommand : Prop :=
  (∀ th tl : Byte, decode [0x50, th, tl] = .ok (.setto (BitVec.ofNat 16 (256 * th.toNat + tl.toNat)))) ∧
  ∀ (t : Word16) (s : State),
    exec (.setto t) s = .next (State.answered { s with timeoutMs := t } 0 0)

/-- R173: GETTO returns the timeout and changes nothing; after a SETTO it returns that value, after reset
TIMEOUT_RESET. -/
def Obligations.GetTimeoutCommand : Prop :=
  decode [0x51] = .ok .getto ∧
  (∀ s : State, exec .getto s = .next (State.answered s 0 s.timeoutMs)) ∧
    (∀ (t : Word16) (s : State),
      ∃ u, runCommands [.setto t, .getto] s = some u ∧ u.responses = s.responses ++ [⟨false, 0, 0⟩, ⟨false, 0, t⟩]) ∧
    ∀ p : Params, ∃ u, exec .getto (State.resetWith p) = .next u ∧ u.responses = [⟨false, 0, p.timeoutReset⟩]

/-- R21, R23, R33: `timeout_ms` is written by no command but SETTO, the buffer and `total` by no command but a read-type
transaction, `available` by those and RECV, `rx` by no command that receives nothing, the position by no command but a
transaction, and the parameters, the packets still presented and the reset line by none. -/
def Obligations.OnlyNamedCommandsWrite : Prop :=
  ∀ (i : Instr) (s t : State), exec i s = .next t →
    ((∀ v, i ≠ .setto v) → t.timeoutMs = s.timeoutMs) ∧
      (isReadType i = false → t.buf = s.buf ∧ t.totalNat = s.totalNat) ∧
      (isReadType i = false → i ≠ .recv → t.availableNat = s.availableNat) ∧
      (isReadType i = false → i ≠ .recvbA → i ≠ .recvbN → t.rx = s.rx) ∧
      (transactionCalls s.params.capacity i = [] → t.stage = s.stage ∧ t.idx = s.idx) ∧
      t.params = s.params ∧ t.offers = s.offers ∧ t.resetLine = s.resetLine

/-! ### The whole machine -/

/-- R86, R70: a command that ends hands back exactly one response and leaves the block idle; one that does not end hands
back none and leaves it busy with the command in progress. -/
def Obligations.OneResponsePerCommand : Prop :=
  ∀ (i : Instr) (s t : State), exec i s = .next t →
    (t.busy = false ∧ t.job = none ∧ ∃ r, t.responses = s.responses ++ [r] ∧ r.illegal = false) ∨
      (t.busy = true ∧ t.job.isSome ∧ t.responses = s.responses)

/-- R70: while a command runs, a packet offered is not accepted and stays offered; the step hands back at most the
response of the running command. -/
def Obligations.BusyBlockAcceptsNothing : Prop :=
  ∀ s t : State, s.resetLine = false → s.busy = true → step s = .next t →
    t.offers = s.offers ∧ t.params = s.params ∧ t.timeoutMs = s.timeoutMs ∧
      ((t.busy = false ∧ ∃ r, t.responses = s.responses ++ [r]) ∨ (t.busy = true ∧ t.responses = s.responses))

/-- R128, R196: a command runs at most one lockup recovery, however many steps it takes: a step that leaves it running
runs none, and the one in which it responds at most one. -/
def Obligations.AtMostOneRecovery : Prop :=
  (∀ (i : Instr) (s t : State), exec i s = .next t →
      s.nReset ≤ t.nReset ∧ t.nReset ≤ s.nReset + 1 ∧ (t.busy = true → t.nReset = s.nReset)) ∧
    ∀ s t : State, s.busy = true → s.resetLine = false → step s = .next t →
      s.nReset ≤ t.nReset ∧ t.nReset ≤ s.nReset + 1 ∧ (t.busy = true → t.nReset = s.nReset)

/-- R232, R145, R159: a transaction never leaves the bus held once it has responded, whether it succeeded or failed, in
one step or resumed. -/
def Obligations.TransactionReleasesBus : Prop :=
  (∀ (i : Instr) (s t : State), transactionCalls s.params.capacity i ≠ [] → exec i s = .next t → t.busy = false →
      t.busHeld = false) ∧
    ∀ (s t : State) (ph : Phase) (c : Call) (rest : List Call), s.Inv → s.resetLine = false →
      s.job = some (.transaction ph c rest) → step s = .next t → t.busy = false → t.busHeld = false

/-- R190, R229: under the controller contract that every status lies in 8..255, a transaction that responds 0 ran no
lockup recovery: 0 means success. -/
def Obligations.ZeroMeansSuccess : Prop :=
  ∀ (i : Instr) (s t : State), transactionCalls s.params.capacity i ≠ [] →
    (∀ a ∈ s.upcoming ((transactionCalls s.params.capacity i).length), 8 ≤ a.status.toNat) →
      exec i s = .next t → t.responses = s.responses ++ [⟨false, 0, 0⟩] →
        t.nReset = s.nReset ∧
          busOps t.hbTrace = busOps s.hbTrace ++
            (transactionCalls s.params.capacity i).map (fun c => c.prim.busOp)

/-- R26: `idx` never exceeds 65537. A well-formed transaction command leaves the position with the bytes done and the
calls still to run of any one stage within that bound, every step that goes on with it keeps this, and under the
invariant, which holds this of every busy block, `idx` is within it. -/
def Obligations.PositionBounded : Prop :=
  (∀ (i : Instr) (s t : State), i.wellFormed = true → transactionCalls s.params.capacity i ≠ [] → exec i s = .next t →
      t.idx.toNat ≤ 65537 ∧ ∀ ph c rest, t.job = some (.transaction ph c rest) →
        t.stage = c.stage ∧ t.PositionBound (c :: rest)) ∧
    (∀ (s t : State) (ph : Phase) (c : Call) (rest : List Call),
      s.busy = true → s.resetLine = false → s.job = some (.transaction ph c rest) → s.stage = c.stage →
        s.PositionBound (c :: rest) → step s = .next t →
          t.idx.toNat ≤ 65537 ∧ ∀ ph' c' rest', t.job = some (.transaction ph' c' rest') →
            t.stage = c'.stage ∧ t.PositionBound (c' :: rest')) ∧
    ∀ s : State, s.Inv → s.idx.toNat ≤ 65537

/-- R29: no rule reads the observation variables. A step from a state with any other trace and any other `bus_held` does
the same, adds the same operations to that trace, and ends with the same `bus_held` or with that one left alone. -/
def Obligations.ObservationVariablesNotRead : Prop :=
  ∀ (s t : State) (trace : List HbOp) (held : Bool), s.resetLine = false → step s = .next t →
    ∃ (ops : List HbOp) (held' : Bool), t.hbTrace = s.hbTrace ++ ops ∧
      step { s with hbTrace := trace, busHeld := held } =
        .next { t with hbTrace := trace ++ ops, busHeld := held' } ∧
      (held' = t.busHeld ∨ held' = held ∧ t.busHeld = s.busHeld)

/-- R30, R24, R25, U5: `t0`, `st` and `rx` are written before every read of them, so the values they hold after reset (0
in this model, its own choice, log 3) or from an earlier command never matter. Two states that are the same but for values
no later step reads (any of the three while no command runs; `rx`, and outside the stop of a NACK path `st`, while one
does) step to two such states, for ever. -/
def Obligations.UnspecifiedRegistersNeverMatter : Prop :=
  (∀ (s u t : State), s.SameButUnread u → step s = .next t → ∃ t', step u = .next t' ∧ t.SameButUnread t') ∧
    ∀ (i : Instr) (s t : State) (t0 : Millis) (st rx : Byte), exec i s = .next t →
      ∃ t', exec i { s with t0 := t0, st := st, rx := rx } = .next t' ∧ t.SameButUnread t'

/-- R22, R27, R26, R64: every step keeps the invariant of the block: the buffer's canonical form, `available ≤ total ≤ C`
with every counted byte written, `busy` exactly while a command is in progress, the position (0, 0) outside a transaction
and inside one the stage in progress, with room in the buffer and in `idx` for the bytes still to come. -/
def Obligations.InvariantKept : Prop := ∀ s t : State, s.Inv → step s = .next t → t.Inv

/-- The invariant holds at reset, for every configuration. -/
def Obligations.InvariantAtReset : Prop := State.reset.Inv ∧ ∀ p : Params, (State.resetWith p).Inv

/-- R194, R196, R197: the block has no fatal condition: from every state that meets the invariant a step answers a next
state. -/
def Obligations.NoFaultUnderInvariant : Prop := ∀ s : State, s.Inv → ∃ t, step s = .next t

/-- R6, R64: the index width of a configuration holds every count up to its capacity, so that under the buffer's
invariant no counter wraps: an append below the capacity adds one to both, a consume of an unread byte takes one from
`available`, and the read index lies in 0..total-1. -/
def Obligations.CountersFitIndexWidth : Prop :=
  (∀ p : Params, p.capacity < 2 ^ p.idxw) ∧
    ∀ s : State, s.BufferInv →
      (s.totalNat < s.params.capacity →
          s.appendRx.totalNat = s.totalNat + 1 ∧ s.appendRx.availableNat = s.availableNat + 1) ∧
        (s.availableNat ≠ 0 →
          s.consume.availableNat + 1 = s.availableNat ∧ s.totalNat - s.availableNat < s.totalNat)

/-! ### Reset and idling -/

/-- R30: the values reset gives. -/
def Obligations.ResetValues : Prop :=
  ∀ p : Params, let r := State.resetWith p
    r.timeoutMs = p.timeoutReset ∧ r.totalNat = 0 ∧ r.availableNat = 0 ∧ r.stage = 0 ∧ r.idx = 0 ∧ r.busy = false ∧
      r.busHeld = false ∧ r.nReset = 0 ∧ r.hbTrace = []

/-- R220, R221: a reset, in mid-command too, abandons the command without a response and issues no operation: the block
takes the reset values and is idle; the packets still presented and the responses already given stay (the last is the
model's log 9). -/
def Obligations.ResetAbandonsCommand : Prop :=
  ∀ s : State, s.resetLine = true → ∃ t, step s = .next t ∧
    t.timeoutMs = s.params.timeoutReset ∧ t.totalNat = 0 ∧ t.availableNat = 0 ∧ t.stage = 0 ∧ t.idx = 0 ∧ t.busy = false ∧
      t.job = none ∧ t.busHeld = false ∧ t.hbTrace = [] ∧ t.params = s.params ∧ t.responses = s.responses ∧
      t.offers = s.offers ∧ t.resetLine = false

/-- R220, R207: an idle block to which no packet is presented does nothing. -/
def Obligations.IdleBlockWaits : Prop :=
  ∀ s : State, s.resetLine = false → s.busy = false → s.offers = [] → step s = .next s
end

