-- ==== Sys2Proof/Laws/State.lean ====
section
/-! SUPPORT. What each named update of the state does to each field: one lemma per field per update, so that no later
proof unfolds a record update. -/
namespace Sys2Proof.Machine

variable (s : State)

@[simp] theorem State.emit_params (l : List HbOp) : (s.emit l).params = s.params := rfl
@[simp] theorem State.emit_timeoutMs (l : List HbOp) : (s.emit l).timeoutMs = s.timeoutMs := rfl
@[simp] theorem State.emit_buf (l : List HbOp) : (s.emit l).buf = s.buf := rfl
@[simp] theorem State.emit_totalNat (l : List HbOp) : (s.emit l).totalNat = s.totalNat := rfl
@[simp] theorem State.emit_availableNat (l : List HbOp) : (s.emit l).availableNat = s.availableNat := rfl
@[simp] theorem State.emit_t0 (l : List HbOp) : (s.emit l).t0 = s.t0 := rfl
@[simp] theorem State.emit_st (l : List HbOp) : (s.emit l).st = s.st := rfl
@[simp] theorem State.emit_rx (l : List HbOp) : (s.emit l).rx = s.rx := rfl
@[simp] theorem State.emit_stage (l : List HbOp) : (s.emit l).stage = s.stage := rfl
@[simp] theorem State.emit_idx (l : List HbOp) : (s.emit l).idx = s.idx := rfl
@[simp] theorem State.emit_busy (l : List HbOp) : (s.emit l).busy = s.busy := rfl
@[simp] theorem State.emit_job (l : List HbOp) : (s.emit l).job = s.job := rfl
@[simp] theorem State.emit_hbTrace (l : List HbOp) : (s.emit l).hbTrace = s.hbTrace ++ l := rfl
@[simp] theorem State.emit_busHeld (l : List HbOp) : (s.emit l).busHeld = s.busHeld := rfl
@[simp] theorem State.emit_resetLine (l : List HbOp) : (s.emit l).resetLine = s.resetLine := rfl
@[simp] theorem State.emit_offers (l : List HbOp) : (s.emit l).offers = s.offers := rfl
@[simp] theorem State.emit_responses (l : List HbOp) : (s.emit l).responses = s.responses := rfl
@[simp] theorem State.emit_env (l : List HbOp) : (s.emit l).env = s.env := rfl
@[simp] theorem State.emit_draws (l : List HbOp) : (s.emit l).draws = s.draws := rfl

@[simp] theorem State.issue_params (now : Millis) (op : HbOp) : (s.issue now op).params = s.params := rfl
@[simp] theorem State.issue_timeoutMs (now : Millis) (op : HbOp) : (s.issue now op).timeoutMs = s.timeoutMs := rfl
@[simp] theorem State.issue_buf (now : Millis) (op : HbOp) : (s.issue now op).buf = s.buf := rfl
@[simp] theorem State.issue_totalNat (now : Millis) (op : HbOp) : (s.issue now op).totalNat = s.totalNat := rfl
@[simp] theorem State.issue_availableNat (now : Millis) (op : HbOp) : (s.issue now op).availableNat = s.availableNat := rfl
@[simp] theorem State.issue_t0 (now : Millis) (op : HbOp) : (s.issue now op).t0 = now := rfl
@[simp] theorem State.issue_st (now : Millis) (op : HbOp) : (s.issue now op).st = s.st := rfl
@[simp] theorem State.issue_rx (now : Millis) (op : HbOp) : (s.issue now op).rx = s.rx := rfl
@[simp] theorem State.issue_stage (now : Millis) (op : HbOp) : (s.issue now op).stage = s.stage := rfl
@[simp] theorem State.issue_idx (now : Millis) (op : HbOp) : (s.issue now op).idx = s.idx := rfl
@[simp] theorem State.issue_busy (now : Millis) (op : HbOp) : (s.issue now op).busy = s.busy := rfl
@[simp] theorem State.issue_job (now : Millis) (op : HbOp) : (s.issue now op).job = s.job := rfl
@[simp] theorem State.issue_hbTrace (now : Millis) (op : HbOp) : (s.issue now op).hbTrace = s.hbTrace ++ [op] := rfl
@[simp] theorem State.issue_busHeld (now : Millis) (op : HbOp) : (s.issue now op).busHeld = s.busHeld := rfl
@[simp] theorem State.issue_resetLine (now : Millis) (op : HbOp) : (s.issue now op).resetLine = s.resetLine := rfl
@[simp] theorem State.issue_offers (now : Millis) (op : HbOp) : (s.issue now op).offers = s.offers := rfl
@[simp] theorem State.issue_responses (now : Millis) (op : HbOp) : (s.issue now op).responses = s.responses := rfl
@[simp] theorem State.issue_env (now : Millis) (op : HbOp) : (s.issue now op).env = s.env := rfl
@[simp] theorem State.issue_draws (now : Millis) (op : HbOp) : (s.issue now op).draws = s.draws := rfl

@[simp] theorem State.recover_params : (s.recover).params = s.params := rfl
@[simp] theorem State.recover_timeoutMs : (s.recover).timeoutMs = s.timeoutMs := rfl
@[simp] theorem State.recover_buf : (s.recover).buf = s.buf := rfl
@[simp] theorem State.recover_totalNat : (s.recover).totalNat = s.totalNat := rfl
@[simp] theorem State.recover_availableNat : (s.recover).availableNat = s.availableNat := rfl
@[simp] theorem State.recover_t0 : (s.recover).t0 = s.t0 := rfl
@[simp] theorem State.recover_st : (s.recover).st = s.st := rfl
@[simp] theorem State.recover_rx : (s.recover).rx = s.rx := rfl
@[simp] theorem State.recover_stage : (s.recover).stage = s.stage := rfl
@[simp] theorem State.recover_idx : (s.recover).idx = s.idx := rfl
@[simp] theorem State.recover_busy : (s.recover).busy = s.busy := rfl
@[simp] theorem State.recover_job : (s.recover).job = s.job := rfl
@[simp] theorem State.recover_hbTrace : (s.recover).hbTrace = s.hbTrace ++ [.forceReset] := rfl
@[simp] theorem State.recover_busHeld : (s.recover).busHeld = false := rfl
@[simp] theorem State.recover_resetLine : (s.recover).resetLine = s.resetLine := rfl
@[simp] theorem State.recover_offers : (s.recover).offers = s.offers := rfl
@[simp] theorem State.recover_responses : (s.recover).responses = s.responses := rfl
@[simp] theorem State.recover_env : (s.recover).env = s.env := rfl
@[simp] theorem State.recover_draws : (s.recover).draws = s.draws := rfl

@[simp] theorem State.setHeld_params (b : Bool) : (s.setHeld b).params = s.params := rfl
@[simp] theorem State.setHeld_timeoutMs (b : Bool) : (s.setHeld b).timeoutMs = s.timeoutMs := rfl
@[simp] theorem State.setHeld_buf (b : Bool) : (s.setHeld b).buf = s.buf := rfl
@[simp] theorem State.setHeld_totalNat (b : Bool) : (s.setHeld b).totalNat = s.totalNat := rfl
@[simp] theorem State.setHeld_availableNat (b : Bool) : (s.setHeld b).availableNat = s.availableNat := rfl
@[simp] theorem State.setHeld_t0 (b : Bool) : (s.setHeld b).t0 = s.t0 := rfl
@[simp] theorem State.setHeld_st (b : Bool) : (s.setHeld b).st = s.st := rfl
@[simp] theorem State.setHeld_rx (b : Bool) : (s.setHeld b).rx = s.rx := rfl
@[simp] theorem State.setHeld_stage (b : Bool) : (s.setHeld b).stage = s.stage := rfl
@[simp] theorem State.setHeld_idx (b : Bool) : (s.setHeld b).idx = s.idx := rfl
@[simp] theorem State.setHeld_busy (b : Bool) : (s.setHeld b).busy = s.busy := rfl
@[simp] theorem State.setHeld_job (b : Bool) : (s.setHeld b).job = s.job := rfl
@[simp] theorem State.setHeld_hbTrace (b : Bool) : (s.setHeld b).hbTrace = s.hbTrace := rfl
@[simp] theorem State.setHeld_busHeld (b : Bool) : (s.setHeld b).busHeld = b := rfl
@[simp] theorem State.setHeld_resetLine (b : Bool) : (s.setHeld b).resetLine = s.resetLine := rfl
@[simp] theorem State.setHeld_offers (b : Bool) : (s.setHeld b).offers = s.offers := rfl
@[simp] theorem State.setHeld_responses (b : Bool) : (s.setHeld b).responses = s.responses := rfl
@[simp] theorem State.setHeld_env (b : Bool) : (s.setHeld b).env = s.env := rfl
@[simp] theorem State.setHeld_draws (b : Bool) : (s.setHeld b).draws = s.draws := rfl

@[simp] theorem State.latchStatus_params (x : Byte) : (s.latchStatus x).params = s.params := rfl
@[simp] theorem State.latchStatus_timeoutMs (x : Byte) : (s.latchStatus x).timeoutMs = s.timeoutMs := rfl
@[simp] theorem State.latchStatus_buf (x : Byte) : (s.latchStatus x).buf = s.buf := rfl
@[simp] theorem State.latchStatus_totalNat (x : Byte) : (s.latchStatus x).totalNat = s.totalNat := rfl
@[simp] theorem State.latchStatus_availableNat (x : Byte) : (s.latchStatus x).availableNat = s.availableNat := rfl
@[simp] theorem State.latchStatus_t0 (x : Byte) : (s.latchStatus x).t0 = s.t0 := rfl
@[simp] theorem State.latchStatus_st (x : Byte) : (s.latchStatus x).st = x := rfl
@[simp] theorem State.latchStatus_rx (x : Byte) : (s.latchStatus x).rx = s.rx := rfl
@[simp] theorem State.latchStatus_stage (x : Byte) : (s.latchStatus x).stage = s.stage := rfl
@[simp] theorem State.latchStatus_idx (x : Byte) : (s.latchStatus x).idx = s.idx := rfl
@[simp] theorem State.latchStatus_busy (x : Byte) : (s.latchStatus x).busy = s.busy := rfl
@[simp] theorem State.latchStatus_job (x : Byte) : (s.latchStatus x).job = s.job := rfl
@[simp] theorem State.latchStatus_hbTrace (x : Byte) : (s.latchStatus x).hbTrace = s.hbTrace ++ [.status] := rfl
@[simp] theorem State.latchStatus_busHeld (x : Byte) : (s.latchStatus x).busHeld = s.busHeld := rfl
@[simp] theorem State.latchStatus_resetLine (x : Byte) : (s.latchStatus x).resetLine = s.resetLine := rfl
@[simp] theorem State.latchStatus_offers (x : Byte) : (s.latchStatus x).offers = s.offers := rfl
@[simp] theorem State.latchStatus_responses (x : Byte) : (s.latchStatus x).responses = s.responses := rfl
@[simp] theorem State.latchStatus_env (x : Byte) : (s.latchStatus x).env = s.env := rfl
@[simp] theorem State.latchStatus_draws (x : Byte) : (s.latchStatus x).draws = s.draws := rfl

@[simp] theorem State.latchRx_params (x : Byte) : (s.latchRx x).params = s.params := rfl
@[simp] theorem State.latchRx_timeoutMs (x : Byte) : (s.latchRx x).timeoutMs = s.timeoutMs := rfl
@[simp] theorem State.latchRx_buf (x : Byte) : (s.latchRx x).buf = s.buf := rfl
@[simp] theorem State.latchRx_totalNat (x : Byte) : (s.latchRx x).totalNat = s.totalNat := rfl
@[simp] theorem State.latchRx_availableNat (x : Byte) : (s.latchRx x).availableNat = s.availableNat := rfl
@[simp] theorem State.latchRx_t0 (x : Byte) : (s.latchRx x).t0 = s.t0 := rfl
@[simp] theorem State.latchRx_st (x : Byte) : (s.latchRx x).st = s.st := rfl
@[simp] theorem State.latchRx_rx (x : Byte) : (s.latchRx x).rx = x := rfl
@[simp] theorem State.latchRx_stage (x : Byte) : (s.latchRx x).stage = s.stage := rfl
@[simp] theorem State.latchRx_idx (x : Byte) : (s.latchRx x).idx = s.idx := rfl
@[simp] theorem State.latchRx_busy (x : Byte) : (s.latchRx x).busy = s.busy := rfl
@[simp] theorem State.latchRx_job (x : Byte) : (s.latchRx x).job = s.job := rfl
@[simp] theorem State.latchRx_hbTrace (x : Byte) : (s.latchRx x).hbTrace = s.hbTrace ++ [.rxData] := rfl
@[simp] theorem State.latchRx_busHeld (x : Byte) : (s.latchRx x).busHeld = s.busHeld := rfl
@[simp] theorem State.latchRx_resetLine (x : Byte) : (s.latchRx x).resetLine = s.resetLine := rfl
@[simp] theorem State.latchRx_offers (x : Byte) : (s.latchRx x).offers = s.offers := rfl
@[simp] theorem State.latchRx_responses (x : Byte) : (s.latchRx x).responses = s.responses := rfl
@[simp] theorem State.latchRx_env (x : Byte) : (s.latchRx x).env = s.env := rfl
@[simp] theorem State.latchRx_draws (x : Byte) : (s.latchRx x).draws = s.draws := rfl

@[simp] theorem State.clearBuffer_params : (s.clearBuffer).params = s.params := rfl
@[simp] theorem State.clearBuffer_timeoutMs : (s.clearBuffer).timeoutMs = s.timeoutMs := rfl
@[simp] theorem State.clearBuffer_buf : (s.clearBuffer).buf = s.buf := rfl
@[simp] theorem State.clearBuffer_totalNat : (s.clearBuffer).totalNat = 0 := Nat.zero_mod _
@[simp] theorem State.clearBuffer_availableNat : (s.clearBuffer).availableNat = 0 := Nat.zero_mod _
@[simp] theorem State.clearBuffer_t0 : (s.clearBuffer).t0 = s.t0 := rfl
@[simp] theorem State.clearBuffer_st : (s.clearBuffer).st = s.st := rfl
@[simp] theorem State.clearBuffer_rx : (s.clearBuffer).rx = s.rx := rfl
@[simp] theorem State.clearBuffer_stage : (s.clearBuffer).stage = s.stage := rfl
@[simp] theorem State.clearBuffer_idx : (s.clearBuffer).idx = s.idx := rfl
@[simp] theorem State.clearBuffer_busy : (s.clearBuffer).busy = s.busy := rfl
@[simp] theorem State.clearBuffer_job : (s.clearBuffer).job = s.job := rfl
@[simp] theorem State.clearBuffer_hbTrace : (s.clearBuffer).hbTrace = s.hbTrace := rfl
@[simp] theorem State.clearBuffer_busHeld : (s.clearBuffer).busHeld = s.busHeld := rfl
@[simp] theorem State.clearBuffer_resetLine : (s.clearBuffer).resetLine = s.resetLine := rfl
@[simp] theorem State.clearBuffer_offers : (s.clearBuffer).offers = s.offers := rfl
@[simp] theorem State.clearBuffer_responses : (s.clearBuffer).responses = s.responses := rfl
@[simp] theorem State.clearBuffer_env : (s.clearBuffer).env = s.env := rfl
@[simp] theorem State.clearBuffer_draws : (s.clearBuffer).draws = s.draws := rfl

@[simp] theorem State.appendRx_params : (s.appendRx).params = s.params := rfl
@[simp] theorem State.appendRx_timeoutMs : (s.appendRx).timeoutMs = s.timeoutMs := rfl
@[simp] theorem State.appendRx_buf : (s.appendRx).buf = Memory.write s.buf s.totalNat s.rx := rfl
@[simp] theorem State.appendRx_totalNat : (s.appendRx).totalNat = (s.totalNat + 1) % 2 ^ s.params.idxw := by
  simp [State.totalNat, State.appendRx]
@[simp] theorem State.appendRx_availableNat : (s.appendRx).availableNat = (s.availableNat + 1) % 2 ^ s.params.idxw := by
  simp [State.availableNat, State.appendRx]
@[simp] theorem State.appendRx_t0 : (s.appendRx).t0 = s.t0 := rfl
@[simp] theorem State.appendRx_st : (s.appendRx).st = s.st := rfl
@[simp] theorem State.appendRx_rx : (s.appendRx).rx = s.rx := rfl
@[simp] theorem State.appendRx_stage : (s.appendRx).stage = s.stage := rfl
@[simp] theorem State.appendRx_idx : (s.appendRx).idx = s.idx := rfl
@[simp] theorem State.appendRx_busy : (s.appendRx).busy = s.busy := rfl
@[simp] theorem State.appendRx_job : (s.appendRx).job = s.job := rfl
@[simp] theorem State.appendRx_hbTrace : (s.appendRx).hbTrace = s.hbTrace := rfl
@[simp] theorem State.appendRx_busHeld : (s.appendRx).busHeld = s.busHeld := rfl
@[simp] theorem State.appendRx_resetLine : (s.appendRx).resetLine = s.resetLine := rfl
@[simp] theorem State.appendRx_offers : (s.appendRx).offers = s.offers := rfl
@[simp] theorem State.appendRx_responses : (s.appendRx).responses = s.responses := rfl
@[simp] theorem State.appendRx_env : (s.appendRx).env = s.env := rfl
@[simp] theorem State.appendRx_draws : (s.appendRx).draws = s.draws := rfl

@[simp] theorem State.enterStage_params (k : BitVec 3) : (s.enterStage k).params = s.params := rfl
@[simp] theorem State.enterStage_timeoutMs (k : BitVec 3) : (s.enterStage k).timeoutMs = s.timeoutMs := rfl
@[simp] theorem State.enterStage_buf (k : BitVec 3) : (s.enterStage k).buf = s.buf := rfl
@[simp] theorem State.enterStage_totalNat (k : BitVec 3) : (s.enterStage k).totalNat = s.totalNat := rfl
@[simp] theorem State.enterStage_availableNat (k : BitVec 3) : (s.enterStage k).availableNat = s.availableNat := rfl
@[simp] theorem State.enterStage_t0 (k : BitVec 3) : (s.enterStage k).t0 = s.t0 := rfl
@[simp] theorem State.enterStage_st (k : BitVec 3) : (s.enterStage k).st = s.st := rfl
@[simp] theorem State.enterStage_rx (k : BitVec 3) : (s.enterStage k).rx = s.rx := rfl
@[simp] theorem State.enterStage_stage (k : BitVec 3) : (s.enterStage k).stage = k := rfl
@[simp] theorem State.enterStage_idx (k : BitVec 3) : (s.enterStage k).idx = if s.stage = k then s.idx else 0 := rfl
@[simp] theorem State.enterStage_busy (k : BitVec 3) : (s.enterStage k).busy = s.busy := rfl
@[simp] theorem State.enterStage_job (k : BitVec 3) : (s.enterStage k).job = s.job := rfl
@[simp] theorem State.enterStage_hbTrace (k : BitVec 3) : (s.enterStage k).hbTrace = s.hbTrace := rfl
@[simp] theorem State.enterStage_busHeld (k : BitVec 3) : (s.enterStage k).busHeld = s.busHeld := rfl
@[simp] theorem State.enterStage_resetLine (k : BitVec 3) : (s.enterStage k).resetLine = s.resetLine := rfl
@[simp] theorem State.enterStage_offers (k : BitVec 3) : (s.enterStage k).offers = s.offers := rfl
@[simp] theorem State.enterStage_responses (k : BitVec 3) : (s.enterStage k).responses = s.responses := rfl
@[simp] theorem State.enterStage_env (k : BitVec 3) : (s.enterStage k).env = s.env := rfl
@[simp] theorem State.enterStage_draws (k : BitVec 3) : (s.enterStage k).draws = s.draws := rfl

@[simp] theorem State.advanceIdx_params : (s.advanceIdx).params = s.params := rfl
@[simp] theorem State.advanceIdx_timeoutMs : (s.advanceIdx).timeoutMs = s.timeoutMs := rfl
@[simp] theorem State.advanceIdx_buf : (s.advanceIdx).buf = s.buf := rfl
@[simp] theorem State.advanceIdx_totalNat : (s.advanceIdx).totalNat = s.totalNat := rfl
@[simp] theorem State.advanceIdx_availableNat : (s.advanceIdx).availableNat = s.availableNat := rfl
@[simp] theorem State.advanceIdx_t0 : (s.advanceIdx).t0 = s.t0 := rfl
@[simp] theorem State.advanceIdx_st : (s.advanceIdx).st = s.st := rfl
@[simp] theorem State.advanceIdx_rx : (s.advanceIdx).rx = s.rx := rfl
@[simp] theorem State.advanceIdx_stage : (s.advanceIdx).stage = s.stage := rfl
@[simp] theorem State.advanceIdx_idx : (s.advanceIdx).idx = s.idx + 1 := rfl
@[simp] theorem State.advanceIdx_busy : (s.advanceIdx).busy = s.busy := rfl
@[simp] theorem State.advanceIdx_job : (s.advanceIdx).job = s.job := rfl
@[simp] theorem State.advanceIdx_hbTrace : (s.advanceIdx).hbTrace = s.hbTrace := rfl
@[simp] theorem State.advanceIdx_busHeld : (s.advanceIdx).busHeld = s.busHeld := rfl
@[simp] theorem State.advanceIdx_resetLine : (s.advanceIdx).resetLine = s.resetLine := rfl
@[simp] theorem State.advanceIdx_offers : (s.advanceIdx).offers = s.offers := rfl
@[simp] theorem State.advanceIdx_responses : (s.advanceIdx).responses = s.responses := rfl
@[simp] theorem State.advanceIdx_env : (s.advanceIdx).env = s.env := rfl
@[simp] theorem State.advanceIdx_draws : (s.advanceIdx).draws = s.draws := rfl

@[simp] theorem State.leaveStages_params : (s.leaveStages).params = s.params := rfl
@[simp] theorem State.leaveStages_timeoutMs : (s.leaveStages).timeoutMs = s.timeoutMs := rfl
@[simp] theorem State.leaveStages_buf : (s.leaveStages).buf = s.buf := rfl
@[simp] theorem State.leaveStages_totalNat : (s.leaveStages).totalNat = s.totalNat := rfl
@[simp] theorem State.leaveStages_availableNat : (s.leaveStages).availableNat = s.availableNat := rfl
@[simp] theorem State.leaveStages_t0 : (s.leaveStages).t0 = s.t0 := rfl
@[simp] theorem State.leaveStages_st : (s.leaveStages).st = s.st := rfl
@[simp] theorem State.leaveStages_rx : (s.leaveStages).rx = s.rx := rfl
@[simp] theorem State.leaveStages_stage : (s.leaveStages).stage = 0 := rfl
@[simp] theorem State.leaveStages_idx : (s.leaveStages).idx = 0 := rfl
@[simp] theorem State.leaveStages_busy : (s.leaveStages).busy = s.busy := rfl
@[simp] theorem State.leaveStages_job : (s.leaveStages).job = s.job := rfl
@[simp] theorem State.leaveStages_hbTrace : (s.leaveStages).hbTrace = s.hbTrace := rfl
@[simp] theorem State.leaveStages_busHeld : (s.leaveStages).busHeld = s.busHeld := rfl
@[simp] theorem State.leaveStages_resetLine : (s.leaveStages).resetLine = s.resetLine := rfl
@[simp] theorem State.leaveStages_offers : (s.leaveStages).offers = s.offers := rfl
@[simp] theorem State.leaveStages_responses : (s.leaveStages).responses = s.responses := rfl
@[simp] theorem State.leaveStages_env : (s.leaveStages).env = s.env := rfl
@[simp] theorem State.leaveStages_draws : (s.leaveStages).draws = s.draws := rfl

@[simp] theorem State.accept_params : (s.accept).params = s.params := rfl
@[simp] theorem State.accept_timeoutMs : (s.accept).timeoutMs = s.timeoutMs := rfl
@[simp] theorem State.accept_buf : (s.accept).buf = s.buf := rfl
@[simp] theorem State.accept_totalNat : (s.accept).totalNat = s.totalNat := rfl
@[simp] theorem State.accept_availableNat : (s.accept).availableNat = s.availableNat := rfl
@[simp] theorem State.accept_t0 : (s.accept).t0 = s.t0 := rfl
@[simp] theorem State.accept_st : (s.accept).st = s.st := rfl
@[simp] theorem State.accept_rx : (s.accept).rx = s.rx := rfl
@[simp] theorem State.accept_stage : (s.accept).stage = s.stage := rfl
@[simp] theorem State.accept_idx : (s.accept).idx = s.idx := rfl
@[simp] theorem State.accept_busy : (s.accept).busy = true := rfl
@[simp] theorem State.accept_job : (s.accept).job = none := rfl
@[simp] theorem State.accept_hbTrace : (s.accept).hbTrace = s.hbTrace := rfl
@[simp] theorem State.accept_busHeld : (s.accept).busHeld = s.busHeld := rfl
@[simp] theorem State.accept_resetLine : (s.accept).resetLine = s.resetLine := rfl
@[simp] theorem State.accept_offers : (s.accept).offers = s.offers := rfl
@[simp] theorem State.accept_responses : (s.accept).responses = s.responses := rfl
@[simp] theorem State.accept_env : (s.accept).env = s.env := rfl
@[simp] theorem State.accept_draws : (s.accept).draws = s.draws := rfl

@[simp] theorem State.suspend_params (j : Job) : (s.suspend j).params = s.params := rfl
@[simp] theorem State.suspend_timeoutMs (j : Job) : (s.suspend j).timeoutMs = s.timeoutMs := rfl
@[simp] theorem State.suspend_buf (j : Job) : (s.suspend j).buf = s.buf := rfl
@[simp] theorem State.suspend_totalNat (j : Job) : (s.suspend j).totalNat = s.totalNat := rfl
@[simp] theorem State.suspend_availableNat (j : Job) : (s.suspend j).availableNat = s.availableNat := rfl
@[simp] theorem State.suspend_t0 (j : Job) : (s.suspend j).t0 = s.t0 := rfl
@[simp] theorem State.suspend_st (j : Job) : (s.suspend j).st = s.st := rfl
@[simp] theorem State.suspend_rx (j : Job) : (s.suspend j).rx = s.rx := rfl
@[simp] theorem State.suspend_stage (j : Job) : (s.suspend j).stage = s.stage := rfl
@[simp] theorem State.suspend_idx (j : Job) : (s.suspend j).idx = s.idx := rfl
@[simp] theorem State.suspend_busy (j : Job) : (s.suspend j).busy = s.busy := rfl
@[simp] theorem State.suspend_job (j : Job) : (s.suspend j).job = some j := rfl
@[simp] theorem State.suspend_hbTrace (j : Job) : (s.suspend j).hbTrace = s.hbTrace := rfl
@[simp] theorem State.suspend_busHeld (j : Job) : (s.suspend j).busHeld = s.busHeld := rfl
@[simp] theorem State.suspend_resetLine (j : Job) : (s.suspend j).resetLine = s.resetLine := rfl
@[simp] theorem State.suspend_offers (j : Job) : (s.suspend j).offers = s.offers := rfl
@[simp] theorem State.suspend_responses (j : Job) : (s.suspend j).responses = s.responses := rfl
@[simp] theorem State.suspend_env (j : Job) : (s.suspend j).env = s.env := rfl
@[simp] theorem State.suspend_draws (j : Job) : (s.suspend j).draws = s.draws := rfl

@[simp] theorem State.respond_params (r : Byte) (d : Word16) : (s.respond r d).params = s.params := rfl
@[simp] theorem State.respond_timeoutMs (r : Byte) (d : Word16) : (s.respond r d).timeoutMs = s.timeoutMs := rfl
@[simp] theorem State.respond_buf (r : Byte) (d : Word16) : (s.respond r d).buf = s.buf := rfl
@[simp] theorem State.respond_totalNat (r : Byte) (d : Word16) : (s.respond r d).totalNat = s.totalNat := rfl
@[simp] theorem State.respond_availableNat (r : Byte) (d : Word16) : (s.respond r d).availableNat = s.availableNat := rfl
@[simp] theorem State.respond_t0 (r : Byte) (d : Word16) : (s.respond r d).t0 = s.t0 := rfl
@[simp] theorem State.respond_st (r : Byte) (d : Word16) : (s.respond r d).st = s.st := rfl
@[simp] theorem State.respond_rx (r : Byte) (d : Word16) : (s.respond r d).rx = s.rx := rfl
@[simp] theorem State.respond_stage (r : Byte) (d : Word16) : (s.respond r d).stage = s.stage := rfl
@[simp] theorem State.respond_idx (r : Byte) (d : Word16) : (s.respond r d).idx = s.idx := rfl
@[simp] theorem State.respond_busy (r : Byte) (d : Word16) : (s.respond r d).busy = false := rfl
@[simp] theorem State.respond_job (r : Byte) (d : Word16) : (s.respond r d).job = none := rfl
@[simp] theorem State.respond_hbTrace (r : Byte) (d : Word16) : (s.respond r d).hbTrace = s.hbTrace := rfl
@[simp] theorem State.respond_busHeld (r : Byte) (d : Word16) : (s.respond r d).busHeld = s.busHeld := rfl
@[simp] theorem State.respond_resetLine (r : Byte) (d : Word16) : (s.respond r d).resetLine = s.resetLine := rfl
@[simp] theorem State.respond_offers (r : Byte) (d : Word16) : (s.respond r d).offers = s.offers := rfl
@[simp] theorem State.respond_responses (r : Byte) (d : Word16) : (s.respond r d).responses = s.responses ++ [⟨false, r, d⟩] := rfl
@[simp] theorem State.respond_env (r : Byte) (d : Word16) : (s.respond r d).env = s.env := rfl
@[simp] theorem State.respond_draws (r : Byte) (d : Word16) : (s.respond r d).draws = s.draws := rfl

@[simp] theorem State.finish_params (r : Byte) : (s.finish r).params = s.params := rfl
@[simp] theorem State.finish_timeoutMs (r : Byte) : (s.finish r).timeoutMs = s.timeoutMs := rfl
@[simp] theorem State.finish_buf (r : Byte) : (s.finish r).buf = s.buf := rfl
@[simp] theorem State.finish_totalNat (r : Byte) : (s.finish r).totalNat = s.totalNat := rfl
@[simp] theorem State.finish_availableNat (r : Byte) : (s.finish r).availableNat = s.availableNat := rfl
@[simp] theorem State.finish_t0 (r : Byte) : (s.finish r).t0 = s.t0 := rfl
@[simp] theorem State.finish_st (r : Byte) : (s.finish r).st = s.st := rfl
@[simp] theorem State.finish_rx (r : Byte) : (s.finish r).rx = s.rx := rfl
@[simp] theorem State.finish_stage (r : Byte) : (s.finish r).stage = 0 := rfl
@[simp] theorem State.finish_idx (r : Byte) : (s.finish r).idx = 0 := rfl
@[simp] theorem State.finish_busy (r : Byte) : (s.finish r).busy = false := rfl
@[simp] theorem State.finish_job (r : Byte) : (s.finish r).job = none := rfl
@[simp] theorem State.finish_hbTrace (r : Byte) : (s.finish r).hbTrace = s.hbTrace := rfl
@[simp] theorem State.finish_busHeld (r : Byte) : (s.finish r).busHeld = s.busHeld := rfl
@[simp] theorem State.finish_resetLine (r : Byte) : (s.finish r).resetLine = s.resetLine := rfl
@[simp] theorem State.finish_offers (r : Byte) : (s.finish r).offers = s.offers := rfl
@[simp] theorem State.finish_responses (r : Byte) : (s.finish r).responses = s.responses ++ [⟨false, r, 0⟩] := rfl
@[simp] theorem State.finish_env (r : Byte) : (s.finish r).env = s.env := rfl
@[simp] theorem State.finish_draws (r : Byte) : (s.finish r).draws = s.draws := rfl

@[simp] theorem State.refuse_params : (s.refuse).params = s.params := rfl
@[simp] theorem State.refuse_timeoutMs : (s.refuse).timeoutMs = s.timeoutMs := rfl
@[simp] theorem State.refuse_buf : (s.refuse).buf = s.buf := rfl
@[simp] theorem State.refuse_totalNat : (s.refuse).totalNat = s.totalNat := rfl
@[simp] theorem State.refuse_availableNat : (s.refuse).availableNat = s.availableNat := rfl
@[simp] theorem State.refuse_t0 : (s.refuse).t0 = s.t0 := rfl
@[simp] theorem State.refuse_st : (s.refuse).st = s.st := rfl
@[simp] theorem State.refuse_rx : (s.refuse).rx = s.rx := rfl
@[simp] theorem State.refuse_stage : (s.refuse).stage = s.stage := rfl
@[simp] theorem State.refuse_idx : (s.refuse).idx = s.idx := rfl
@[simp] theorem State.refuse_busy : (s.refuse).busy = s.busy := rfl
@[simp] theorem State.refuse_job : (s.refuse).job = s.job := rfl
@[simp] theorem State.refuse_hbTrace : (s.refuse).hbTrace = s.hbTrace := rfl
@[simp] theorem State.refuse_busHeld : (s.refuse).busHeld = s.busHeld := rfl
@[simp] theorem State.refuse_resetLine : (s.refuse).resetLine = s.resetLine := rfl
@[simp] theorem State.refuse_offers : (s.refuse).offers = s.offers := rfl
@[simp] theorem State.refuse_responses : (s.refuse).responses = s.responses ++ [⟨true, 0, 0⟩] := rfl
@[simp] theorem State.refuse_env : (s.refuse).env = s.env := rfl
@[simp] theorem State.refuse_draws : (s.refuse).draws = s.draws := rfl

@[simp] theorem State.setOffers_params (o : List (List Byte)) : (s.setOffers o).params = s.params := rfl
@[simp] theorem State.setOffers_timeoutMs (o : List (List Byte)) : (s.setOffers o).timeoutMs = s.timeoutMs := rfl
@[simp] theorem State.setOffers_buf (o : List (List Byte)) : (s.setOffers o).buf = s.buf := rfl
@[simp] theorem State.setOffers_totalNat (o : List (List Byte)) : (s.setOffers o).totalNat = s.totalNat := rfl
@[simp] theorem State.setOffers_availableNat (o : List (List Byte)) : (s.setOffers o).availableNat = s.availableNat := rfl
@[simp] theorem State.setOffers_t0 (o : List (List Byte)) : (s.setOffers o).t0 = s.t0 := rfl
@[simp] theorem State.setOffers_st (o : List (List Byte)) : (s.setOffers o).st = s.st := rfl
@[simp] theorem State.setOffers_rx (o : List (List Byte)) : (s.setOffers o).rx = s.rx := rfl
@[simp] theorem State.setOffers_stage (o : List (List Byte)) : (s.setOffers o).stage = s.stage := rfl
@[simp] theorem State.setOffers_idx (o : List (List Byte)) : (s.setOffers o).idx = s.idx := rfl
@[simp] theorem State.setOffers_busy (o : List (List Byte)) : (s.setOffers o).busy = s.busy := rfl
@[simp] theorem State.setOffers_job (o : List (List Byte)) : (s.setOffers o).job = s.job := rfl
@[simp] theorem State.setOffers_hbTrace (o : List (List Byte)) : (s.setOffers o).hbTrace = s.hbTrace := rfl
@[simp] theorem State.setOffers_busHeld (o : List (List Byte)) : (s.setOffers o).busHeld = s.busHeld := rfl
@[simp] theorem State.setOffers_resetLine (o : List (List Byte)) : (s.setOffers o).resetLine = s.resetLine := rfl
@[simp] theorem State.setOffers_offers (o : List (List Byte)) : (s.setOffers o).offers = o := rfl
@[simp] theorem State.setOffers_responses (o : List (List Byte)) : (s.setOffers o).responses = s.responses := rfl
@[simp] theorem State.setOffers_env (o : List (List Byte)) : (s.setOffers o).env = s.env := rfl
@[simp] theorem State.setOffers_draws (o : List (List Byte)) : (s.setOffers o).draws = s.draws := rfl

@[simp] theorem State.setTimeout_params (t : Word16) : (s.setTimeout t).params = s.params := rfl
@[simp] theorem State.setTimeout_timeoutMs (t : Word16) : (s.setTimeout t).timeoutMs = t := rfl
@[simp] theorem State.setTimeout_buf (t : Word16) : (s.setTimeout t).buf = s.buf := rfl
@[simp] theorem State.setTimeout_totalNat (t : Word16) : (s.setTimeout t).totalNat = s.totalNat := rfl
@[simp] theorem State.setTimeout_availableNat (t : Word16) : (s.setTimeout t).availableNat = s.availableNat := rfl
@[simp] theorem State.setTimeout_t0 (t : Word16) : (s.setTimeout t).t0 = s.t0 := rfl
@[simp] theorem State.setTimeout_st (t : Word16) : (s.setTimeout t).st = s.st := rfl
@[simp] theorem State.setTimeout_rx (t : Word16) : (s.setTimeout t).rx = s.rx := rfl
@[simp] theorem State.setTimeout_stage (t : Word16) : (s.setTimeout t).stage = s.stage := rfl
@[simp] theorem State.setTimeout_idx (t : Word16) : (s.setTimeout t).idx = s.idx := rfl
@[simp] theorem State.setTimeout_busy (t : Word16) : (s.setTimeout t).busy = s.busy := rfl
@[simp] theorem State.setTimeout_job (t : Word16) : (s.setTimeout t).job = s.job := rfl
@[simp] theorem State.setTimeout_hbTrace (t : Word16) : (s.setTimeout t).hbTrace = s.hbTrace := rfl
@[simp] theorem State.setTimeout_busHeld (t : Word16) : (s.setTimeout t).busHeld = s.busHeld := rfl
@[simp] theorem State.setTimeout_resetLine (t : Word16) : (s.setTimeout t).resetLine = s.resetLine := rfl
@[simp] theorem State.setTimeout_offers (t : Word16) : (s.setTimeout t).offers = s.offers := rfl
@[simp] theorem State.setTimeout_responses (t : Word16) : (s.setTimeout t).responses = s.responses := rfl
@[simp] theorem State.setTimeout_env (t : Word16) : (s.setTimeout t).env = s.env := rfl
@[simp] theorem State.setTimeout_draws (t : Word16) : (s.setTimeout t).draws = s.draws := rfl

@[simp] theorem State.consume_params : (s.consume).params = s.params := rfl
@[simp] theorem State.consume_timeoutMs : (s.consume).timeoutMs = s.timeoutMs := rfl
@[simp] theorem State.consume_buf : (s.consume).buf = s.buf := rfl
@[simp] theorem State.consume_totalNat : (s.consume).totalNat = s.totalNat := rfl
theorem State.consume_availableNat (h : s.availableNat ≠ 0) :
    (s.consume).availableNat = s.availableNat - 1 := by
  have hb : s.availableNat < 2 ^ s.params.idxw := s.available.isLt
  have h1 : 1 < 2 ^ s.params.idxw := by omega
  have h2 : (1 : s.params.Index).toNat = 1 := Nat.mod_eq_of_lt h1
  have e : s.consume.availableNat = (2 ^ s.params.idxw - 1 + s.availableNat) % 2 ^ s.params.idxw := by
    rw [← h2]
    exact BitVec.toNat_sub _ _
  rw [e, show 2 ^ s.params.idxw - 1 + s.availableNat = 2 ^ s.params.idxw + (s.availableNat - 1) by omega,
    Nat.add_mod_left, Nat.mod_eq_of_lt (by omega)]
@[simp] theorem State.consume_t0 : (s.consume).t0 = s.t0 := rfl
@[simp] theorem State.consume_st : (s.consume).st = s.st := rfl
@[simp] theorem State.consume_rx : (s.consume).rx = s.rx := rfl
@[simp] theorem State.consume_stage : (s.consume).stage = s.stage := rfl
@[simp] theorem State.consume_idx : (s.consume).idx = s.idx := rfl
@[simp] theorem State.consume_busy : (s.consume).busy = s.busy := rfl
@[simp] theorem State.consume_job : (s.consume).job = s.job := rfl
@[simp] theorem State.consume_hbTrace : (s.consume).hbTrace = s.hbTrace := rfl
@[simp] theorem State.consume_busHeld : (s.consume).busHeld = s.busHeld := rfl
@[simp] theorem State.consume_resetLine : (s.consume).resetLine = s.resetLine := rfl
@[simp] theorem State.consume_offers : (s.consume).offers = s.offers := rfl
@[simp] theorem State.consume_responses : (s.consume).responses = s.responses := rfl
@[simp] theorem State.consume_env : (s.consume).env = s.env := rfl
@[simp] theorem State.consume_draws : (s.consume).draws = s.draws := rfl

@[simp] theorem State.dropAnswer_params : s.dropAnswer.params = s.params := rfl
@[simp] theorem State.dropAnswer_timeoutMs : s.dropAnswer.timeoutMs = s.timeoutMs := rfl
@[simp] theorem State.dropAnswer_buf : s.dropAnswer.buf = s.buf := rfl
@[simp] theorem State.dropAnswer_totalNat : s.dropAnswer.totalNat = s.totalNat := rfl
@[simp] theorem State.dropAnswer_availableNat : s.dropAnswer.availableNat = s.availableNat := rfl
@[simp] theorem State.dropAnswer_t0 : s.dropAnswer.t0 = s.t0 := rfl
@[simp] theorem State.dropAnswer_st : s.dropAnswer.st = s.st := rfl
@[simp] theorem State.dropAnswer_rx : s.dropAnswer.rx = s.rx := rfl
@[simp] theorem State.dropAnswer_stage : s.dropAnswer.stage = s.stage := rfl
@[simp] theorem State.dropAnswer_idx : s.dropAnswer.idx = s.idx := rfl
@[simp] theorem State.dropAnswer_busy : s.dropAnswer.busy = s.busy := rfl
@[simp] theorem State.dropAnswer_job : s.dropAnswer.job = s.job := rfl
@[simp] theorem State.dropAnswer_hbTrace : s.dropAnswer.hbTrace = s.hbTrace := rfl
@[simp] theorem State.dropAnswer_busHeld : s.dropAnswer.busHeld = s.busHeld := rfl
@[simp] theorem State.dropAnswer_resetLine : s.dropAnswer.resetLine = s.resetLine := rfl
@[simp] theorem State.dropAnswer_offers : s.dropAnswer.offers = s.offers := rfl
@[simp] theorem State.dropAnswer_responses : s.dropAnswer.responses = s.responses := rfl
@[simp] theorem State.dropAnswer_env : s.dropAnswer.env = s.env.tail := rfl
@[simp] theorem State.dropAnswer_draws :
    s.dropAnswer.draws = if s.env.isEmpty then s.draws + 1 else s.draws := rfl

end Sys2Proof.Machine
end

