-- ==== Sys2Proof/Laws/Ops.lean ====
section
/-! SUPPORT. Everything a shared operation can do, said once: the guarded wait, a primitive, a stage of a transaction. -/
namespace Sys2Proof.Machine

section
variable (s : State) (op : HbOp) (on : WaitOn)

@[simp] theorem State.polled_params : (s.polled op on).params = s.params := rfl
@[simp] theorem State.polled_timeoutMs : (s.polled op on).timeoutMs = s.timeoutMs := rfl
@[simp] theorem State.polled_buf : (s.polled op on).buf = s.buf := rfl
@[simp] theorem State.polled_totalNat : (s.polled op on).totalNat = s.totalNat := rfl
@[simp] theorem State.polled_availableNat : (s.polled op on).availableNat = s.availableNat := rfl
@[simp] theorem State.polled_st : (s.polled op on).st = s.st := rfl
@[simp] theorem State.polled_rx : (s.polled op on).rx = s.rx := rfl
@[simp] theorem State.polled_stage : (s.polled op on).stage = s.stage := rfl
@[simp] theorem State.polled_idx : (s.polled op on).idx = s.idx := rfl
@[simp] theorem State.polled_busy : (s.polled op on).busy = s.busy := rfl
@[simp] theorem State.polled_job : (s.polled op on).job = s.job := rfl
@[simp] theorem State.polled_busHeld : (s.polled op on).busHeld = s.busHeld := rfl
@[simp] theorem State.polled_resetLine : (s.polled op on).resetLine = s.resetLine := rfl
@[simp] theorem State.polled_offers : (s.polled op on).offers = s.offers := rfl
@[simp] theorem State.polled_responses : (s.polled op on).responses = s.responses := rfl
@[simp] theorem State.polled_t0 : (s.polled op on).t0 = s.answer.now0 := rfl
@[simp] theorem State.polled_hbTrace : (s.polled op on).hbTrace =
    s.hbTrace ++ op :: List.replicate (s.answer.pollCount on s.timeoutMs) on.pollOp := rfl

end

/-- What every primitive leaves alone, and that the trace only grows (R33, R58). -/
structure PrimFrame (s t : State) : Prop where
  params : t.params = s.params
  timeoutMs : t.timeoutMs = s.timeoutMs
  buf : t.buf = s.buf
  total : t.totalNat = s.totalNat
  available : t.availableNat = s.availableNat
  stage : t.stage = s.stage
  idx : t.idx = s.idx
  busy : t.busy = s.busy
  job : t.job = s.job
  resetLine : t.resetLine = s.resetLine
  offers : t.offers = s.offers
  responses : t.responses = s.responses
  hbTrace : ∃ ops, t.hbTrace = s.hbTrace ++ ops

theorem PrimFrame.refl (s : State) : PrimFrame s s :=
  ⟨rfl, rfl, rfl, rfl, rfl, rfl, rfl, rfl, rfl, rfl, rfl, rfl, [], by simp⟩

theorem PrimFrame.trans {s t u : State} (h : PrimFrame s t) (k : PrimFrame t u) : PrimFrame s u := by
  obtain ⟨x, hx⟩ := h.hbTrace
  obtain ⟨y, hy⟩ := k.hbTrace
  exact ⟨k.params.trans h.params, k.timeoutMs.trans h.timeoutMs, k.buf.trans h.buf, k.total.trans h.total,
    k.available.trans h.available, k.stage.trans h.stage, k.idx.trans h.idx, k.busy.trans h.busy, k.job.trans h.job,
    k.resetLine.trans h.resetLine, k.offers.trans h.offers, k.responses.trans h.responses, x ++ y, by simp [hx, hy]⟩

theorem dropAnswer_frame (s : State) : PrimFrame s s.dropAnswer := by
  refine ⟨?_, ?_, ?_, ?_, ?_, ?_, ?_, ?_, ?_, ?_, ?_, ?_, [], ?_⟩ <;> simp

theorem emit_frame (s : State) (l : List HbOp) : PrimFrame s (s.emit l) :=
  ⟨rfl, rfl, rfl, rfl, rfl, rfl, rfl, rfl, rfl, rfl, rfl, rfl, l, rfl⟩

theorem issue_frame (s : State) (now : Millis) (op : HbOp) : PrimFrame s (s.issue now op) :=
  ⟨rfl, rfl, rfl, rfl, rfl, rfl, rfl, rfl, rfl, rfl, rfl, rfl, [op], rfl⟩

theorem recover_frame (s : State) : PrimFrame s s.recover :=
  ⟨rfl, rfl, rfl, rfl, rfl, rfl, rfl, rfl, rfl, rfl, rfl, rfl, [.forceReset], rfl⟩

theorem setHeld_frame (s : State) (b : Bool) : PrimFrame s (s.setHeld b) :=
  ⟨rfl, rfl, rfl, rfl, rfl, rfl, rfl, rfl, rfl, rfl, rfl, rfl, [], by simp⟩

theorem latchStatus_frame (s : State) (x : Byte) : PrimFrame s (s.latchStatus x) :=
  ⟨rfl, rfl, rfl, rfl, rfl, rfl, rfl, rfl, rfl, rfl, rfl, rfl, [.status], rfl⟩

theorem latchRx_frame (s : State) (x : Byte) : PrimFrame s (s.latchRx x) :=
  ⟨rfl, rfl, rfl, rfl, rfl, rfl, rfl, rfl, rfl, rfl, rfl, rfl, [.rxData], rfl⟩

/-- The guarded wait, whole (R124, R128 (a)): its polls are issued, and a recovery exactly when it expires. -/
theorem guardedWait_eq (s : State) (on : WaitOn) (polls : List Poll) :
    s.guardedWait on polls =
      ((pollWait on s.timeoutMs s.t0 polls).1,
        if (pollWait on s.timeoutMs s.t0 polls).1 = .timeout then
          (s.emit (List.replicate (pollWait on s.timeoutMs s.t0 polls).2 on.pollOp)).recover
        else s.emit (List.replicate (pollWait on s.timeoutMs s.t0 polls).2 on.pollOp)) := by
  cases h : (pollWait on s.timeoutMs s.t0 polls).1 <;> simp [State.guardedWait, h]

theorem guardedWait_frame (s : State) (on : WaitOn) (polls : List Poll) : PrimFrame s (s.guardedWait on polls).2 := by
  rw [guardedWait_eq]
  dsimp only
  split
  · exact (emit_frame _ _).trans (recover_frame _)
  · exact emit_frame _ _

theorem awaitStop_frame (a : Answer) (s : State) : PrimFrame s (awaitStop a s).2 := by
  have h := guardedWait_frame s .stopDone a.polls
  unfold awaitStop
  split <;> rename_i e <;> rw [e] at h
  · exact h.trans (setHeld_frame _ _)
  · exact h
  · exact h

theorem primStop_frame (s : State) : PrimFrame s (primStop s).2 :=
  ((dropAnswer_frame s).trans (issue_frame _ _ _)).trans (awaitStop_frame _ _)

theorem dropStopOutcome_snd (x : Byte) (r : Progress × State) : (dropStopOutcome x r).2 = r.2 := by
  rcases r with ⟨_ | _, _⟩ <;> rfl

theorem succeed_frame (s : State) (p : Prim) (a : Answer) : PrimFrame s (s.succeed p a) := by
  cases p with
  | start => exact setHeld_frame _ _
  | recvB ack => exact latchRx_frame _ _
  | sendA b => exact .refl s
  | sendB b => exact .refl s
  | stop => exact .refl s

theorem decideStatus_frame (p : Prim) (a : Answer) (s : State) : PrimFrame s (decideStatus p a s).2 := by
  unfold decideStatus
  split
  · exact succeed_frame _ _ _
  · rw [dropStopOutcome_snd]
    exact primStop_frame _
  · exact recover_frame _

theorem awaitComplete_frame (p : Prim) (a : Answer) (s : State) : PrimFrame s (awaitComplete p a s).2 := by
  have h := guardedWait_frame s .complete a.polls
  unfold awaitComplete
  split <;> rename_i e <;> rw [e] at h
  · exact (h.trans (latchStatus_frame _ _)).trans (decideStatus_frame _ _ _)
  · exact h
  · exact h

theorem awaitPrim_frame (p : Prim) (a : Answer) (s : State) : PrimFrame s (awaitPrim p a s).2 := by
  cases p with
  | start => exact awaitComplete_frame _ _ _
  | sendA b => exact awaitComplete_frame _ _ _
  | sendB b => exact awaitComplete_frame _ _ _
  | recvB ack => exact awaitComplete_frame _ _ _
  | stop => exact awaitStop_frame _ _

/-- A primitive leaves alone everything but `t0`, `st`, `rx`, the trace, `bus_held` and the environment (R33). -/
theorem runPrim_frame (p : Prim) (s : State) : PrimFrame s (runPrim p s).2 :=
  ((dropAnswer_frame s).trans (issue_frame _ _ _)).trans (awaitPrim_frame _ _ _)

/-- So does a primitive that goes on polling (R125). -/
theorem resumePrim_frame (ph : Phase) (p : Prim) (s : State) : PrimFrame s (resumePrim ph p s).2 := by
  cases ph with
  | action => exact (dropAnswer_frame s).trans (awaitPrim_frame _ _ _)
  | nackStop =>
    simp only [resumePrim, dropStopOutcome_snd]
    exact (dropAnswer_frame s).trans (awaitStop_frame _ _)

/-- The flag a primitive's own wait polls (R124). -/
def Prim.waitsOn : Prim → WaitOn
  | .start => .complete
  | .sendA _ => .complete
  | .sendB _ => .complete
  | .recvB _ => .complete
  | .stop => .stopDone

theorem primWait_eq (a : Answer) (timeout : Word16) (p : Prim) : a.primWait timeout p = a.waitEnd p.waitsOn timeout := by
  cases p <;> rfl

/-- The wait of a primitive just begun: the state `polled`, recovered when the wait expired. -/
theorem guardedWait_begun (p : Prim) (s : State) (on : WaitOn) :
    (s.dropAnswer.issue s.answer.now0 p.busOp).guardedWait on s.answer.polls =
      (s.answer.waitEnd on s.timeoutMs,
        if s.answer.waitEnd on s.timeoutMs = .timeout then (s.polled p.busOp on).recover else s.polled p.busOp on) := by
  have e : (s.dropAnswer.issue s.answer.now0 p.busOp).emit
      (List.replicate (s.answer.pollCount on s.timeoutMs) on.pollOp) = s.polled p.busOp on := by
    simp [State.emit, State.issue, State.polled, Answer.pollCount]
  rw [guardedWait_eq]
  simp only [State.issue_timeoutMs, State.dropAnswer_timeoutMs, State.issue_t0]
  rw [← e]
  rfl

/-- A primitive whose wait expires (R100, R128 (a)). -/
theorem runPrim_timeout {p : Prim} {s : State} (h : s.answer.primWait s.timeoutMs p = .timeout) :
    runPrim p s = (.ended .timeout, (s.polled p.busOp p.waitsOn).recover) := by
  rw [primWait_eq] at h
  cases p <;> simp_all [runPrim, awaitPrim, awaitComplete, awaitStop, guardedWait_begun, Prim.waitsOn]

/-- A primitive whose wait goes on (R125). -/
theorem runPrim_undecided {p : Prim} {s : State} (h : s.answer.primWait s.timeoutMs p = .undecided) :
    runPrim p s = (.pending .action, s.polled p.busOp p.waitsOn) := by
  rw [primWait_eq] at h
  cases p <;> simp_all [runPrim, awaitPrim, awaitComplete, awaitStop, guardedWait_begun, Prim.waitsOn]

/-- A stop whose wait is done (R106). -/
theorem runPrim_stop_done {s : State} (h : s.answer.primWait s.timeoutMs .stop = .done) :
    runPrim .stop s = (.ended .ok, (s.polled .issueStop .stopDone).setHeld false) := by
  rw [primWait_eq] at h
  have e := guardedWait_begun .stop s .stopDone
  simp_all [runPrim, awaitPrim, awaitStop, Prim.waitsOn, Prim.busOp]

/-- A status-reading primitive whose wait is done decides on the status (R100). -/
theorem runPrim_done {p : Prim} {s : State} (hp : p ≠ .stop) (h : s.answer.primWait s.timeoutMs p = .done) :
    runPrim p s = decideStatus p s.answer ((s.polled p.busOp .complete).latchStatus s.answer.status) := by
  rw [primWait_eq] at h
  cases p <;> simp_all [runPrim, awaitPrim, awaitComplete, guardedWait_begun, Prim.waitsOn]

/-- The state a granted primitive leaves (R100, R29). -/
def grantedState (p : Prim) (s : State) : State :=
  match p with
  | .stop => (s.polled .issueStop .stopDone).setHeld false
  | p => ((s.polled p.busOp .complete).latchStatus s.answer.status).succeed p s.answer

/-- A primitive the environment grants ends with `OK` (R100). -/
theorem runPrim_granted {p : Prim} {s : State} (h : s.answer.grants s.params.codes s.timeoutMs p = true) :
    runPrim p s = (.ended .ok, grantedState p s) := by
  simp only [Answer.grants, Bool.and_eq_true, decide_eq_true_eq, Bool.or_eq_true] at h
  obtain ⟨hw, hs⟩ := h
  by_cases hp : p = .stop
  · subst hp
    exact runPrim_stop_done hw
  · have hj := hs.resolve_left hp
    have hc : (s.polled p.busOp .complete).params.codes = s.params.codes := by simp
    rw [runPrim_done hp hw, decideStatus]
    simp only [State.latchStatus_params, State.latchStatus_st, hc, hj]
    cases p <;> first | rfl | exact absurd rfl hp

/-- A stage whose primitive ends with `OK` goes on with the next (R142). -/
theorem runCalls_ok {c : Call} {calls : List Call} {s t : State}
    (h : runPrim c.prim (s.enterStage c.stage) = (.ended .ok, t)) :
    runCalls (c :: calls) s = runCalls calls (c.advance t) := by
  simp [runCalls, h, settleCall]

/-- A stage whose primitive fails ends the transaction with the code of R143. -/
theorem runCalls_fails {c : Call} {calls : List Call} {s t : State} {o : PrimOutcome}
    (h : runPrim c.prim (s.enterStage c.stage) = (.ended o, t)) (ho : o ≠ .ok) :
    runCalls (c :: calls) s = t.finish (o.remap c.stage) := by
  have hs : t.stage = c.stage := by simpa [h] using (runPrim_frame c.prim (s.enterStage c.stage)).stage
  cases o <;> simp_all [runCalls, settleCall]

/-- A stage whose wait goes on leaves the block busy (R125). -/
theorem runCalls_pending {c : Call} {calls : List Call} {s t : State} {ph : Phase}
    (h : runPrim c.prim (s.enterStage c.stage) = (.pending ph, t)) :
    runCalls (c :: calls) s = t.suspend (.transaction ph c calls) := by
  simp [runCalls, h, settleCall]

end Sys2Proof.Machine
end

