-- ==== Sys2Proof/Laws/Calls.lean ====
section
/-! SUPPORT. A run of granted stages of a transaction, said once: the state it leaves and what that state keeps. -/
namespace Sys2Proof.Machine

/-- The environment of one state is that of another. -/
structure SameEnv (s t : State) : Prop where
  env : t.env = s.env
  draws : t.draws = s.draws

theorem SameEnv.answer {s t : State} (h : SameEnv s t) : t.answer = s.answer := by
  simp [State.answer, h.env, h.draws]

theorem SameEnv.drop {s t : State} (h : SameEnv s t) : SameEnv s.dropAnswer t.dropAnswer := by
  have he := h.env
  cases hs : s.env <;> rw [hs] at he <;> constructor <;> simp [State.dropAnswer, hs, he, h.draws]

theorem SameEnv.upcoming {s t : State} (h : SameEnv s t) (n : Nat) : t.upcoming n = s.upcoming n := by
  induction n generalizing s t with
  | zero => rfl
  | succ n ih => simp [State.upcoming, h.answer, ih h.drop]

theorem SameEnv.dropAnswers {s t : State} (h : SameEnv s t) (n : Nat) : SameEnv (s.dropAnswers n) (t.dropAnswers n) := by
  induction n generalizing s t with
  | zero => exact h
  | succ n ih => exact ih h.drop

/-- The state a granted stage leaves (R142, R152). -/
def grantedCall (c : Call) (s : State) : State := c.advance (grantedState c.prim (s.enterStage c.stage))

/-- The state a run of granted stages leaves. -/
def afterCalls : List Call → State → State
  | [], s => s
  | c :: cs, s => afterCalls cs (grantedCall c s)

/-- What no stage writes. -/
structure StageFrame (s t : State) : Prop where
  params : t.params = s.params
  timeoutMs : t.timeoutMs = s.timeoutMs
  busy : t.busy = s.busy
  job : t.job = s.job
  resetLine : t.resetLine = s.resetLine
  offers : t.offers = s.offers
  responses : t.responses = s.responses

theorem StageFrame.trans {s t u : State} (h : StageFrame s t) (k : StageFrame t u) : StageFrame s u :=
  ⟨k.params.trans h.params, k.timeoutMs.trans h.timeoutMs, k.busy.trans h.busy, k.job.trans h.job,
    k.resetLine.trans h.resetLine, k.offers.trans h.offers, k.responses.trans h.responses⟩

theorem grantedState_env (p : Prim) (s : State) : SameEnv s.dropAnswer (grantedState p s) := by
  cases p <;> exact ⟨rfl, rfl⟩

theorem grantedState_frame (p : Prim) (s : State) : StageFrame s (grantedState p s) := by
  cases p <;> constructor <;> simp [grantedState, State.succeed]

theorem grantedCall_env (c : Call) (s : State) : SameEnv s.dropAnswer (grantedCall c s) := by
  have h : SameEnv s (s.enterStage c.stage) := ⟨rfl, rfl⟩
  have k := grantedState_env c.prim (s.enterStage c.stage)
  have e : (grantedCall c s).env = (grantedState c.prim (s.enterStage c.stage)).env ∧
      (grantedCall c s).draws = (grantedState c.prim (s.enterStage c.stage)).draws := by
    unfold grantedCall Call.advance
    cases c.prim <;> exact ⟨rfl, rfl⟩
  exact ⟨e.1.trans (k.env.trans h.drop.env), e.2.trans (k.draws.trans h.drop.draws)⟩

theorem grantedCall_frame (c : Call) (s : State) : StageFrame s (grantedCall c s) := by
  have k := grantedState_frame c.prim (s.enterStage c.stage)
  have e : StageFrame (grantedState c.prim (s.enterStage c.stage)) (grantedCall c s) := by
    unfold grantedCall Call.advance
    cases c.prim <;> exact ⟨rfl, rfl, rfl, rfl, rfl, rfl, rfl⟩
  exact StageFrame.trans ⟨k.params, k.timeoutMs, k.busy, k.job, k.resetLine, k.offers, k.responses⟩ e

theorem afterCalls_env (cs : List Call) (s : State) : SameEnv (s.dropAnswers cs.length) (afterCalls cs s) := by
  induction cs generalizing s with
  | nil => exact ⟨rfl, rfl⟩
  | cons c cs ih =>
    have h := (grantedCall_env c s).dropAnswers cs.length
    have k := ih (grantedCall c s)
    exact ⟨k.env.trans h.env, k.draws.trans h.draws⟩

theorem afterCalls_frame (cs : List Call) (s : State) : StageFrame s (afterCalls cs s) := by
  induction cs generalizing s with
  | nil => exact ⟨rfl, rfl, rfl, rfl, rfl, rfl, rfl⟩
  | cons c cs ih => exact (grantedCall_frame c s).trans (ih _)

theorem afterCalls_append (xs ys : List Call) (s : State) : afterCalls (xs ++ ys) s = afterCalls ys (afterCalls xs s) := by
  induction xs generalizing s with
  | nil => rfl
  | cons c cs ih => exact ih _

/-- A transaction whose first stages are granted goes on from the state they leave (R26, R142). -/
theorem runCalls_granted {lead : List Call} (rest : List Call) {s : State}
    (h : grantsAll s.params.codes s.timeoutMs (lead.map Call.prim) (s.upcoming lead.length) = true) :
    runCalls (lead ++ rest) s = runCalls rest (afterCalls lead s) := by
  induction lead generalizing s with
  | nil => rfl
  | cons c cs ih =>
    simp only [List.map_cons, List.length_cons, State.upcoming, grantsAll, Bool.and_eq_true] at h
    have f := grantedCall_frame c s
    have e := (grantedCall_env c s).upcoming cs.length
    rw [List.cons_append, runCalls_ok (t := grantedState c.prim (s.enterStage c.stage)) (runPrim_granted h.1)]
    exact ih (s := grantedCall c s) (by rw [f.params, f.timeoutMs, e]; exact h.2)

end Sys2Proof.Machine
end

