-- ==== Sys2Proof/Laws/Decode.lean ====
section
/-! SUPPORT. The fields of a packet: joining and splitting 16-bit fields, and the address byte. -/
namespace Sys2Proof

theorem joinBytes_toNat (h l : Byte) : (joinBytes h l).toNat = 256 * h.toNat + l.toNat := by
  have h1 := h.isLt
  have h2 := l.isLt
  simp only [joinBytes, BitVec.toNat_or, BitVec.toNat_shiftLeft, BitVec.toNat_setWidth]
  rw [Nat.mod_eq_of_lt (a := h.toNat) (by omega), Nat.mod_eq_of_lt (a := l.toNat) (by omega),
    Nat.mod_eq_of_lt (by rw [Nat.shiftLeft_eq]; omega), ← Nat.shiftLeft_add_eq_or_of_lt (by omega), Nat.shiftLeft_eq]
  omega

@[simp] theorem joinBytes_hiByte_loByte (w : Word16) : joinBytes (hiByte w) (loByte w) = w := by
  apply BitVec.eq_of_toNat_eq
  have := w.isLt
  rw [joinBytes_toNat]
  simp only [hiByte, loByte, BitVec.extractLsb'_toNat, Nat.shiftRight_eq_div_pow]
  omega

@[simp] theorem hiByte_joinBytes (h l : Byte) : hiByte (joinBytes h l) = h := by
  apply BitVec.eq_of_toNat_eq
  have h1 := h.isLt
  have h2 := l.isLt
  simp only [hiByte, BitVec.extractLsb'_toNat, Nat.shiftRight_eq_div_pow, joinBytes_toNat]
  omega

@[simp] theorem loByte_joinBytes (h l : Byte) : loByte (joinBytes h l) = l := by
  apply BitVec.eq_of_toNat_eq
  have h1 := h.isLt
  have h2 := l.isLt
  simp only [loByte, BitVec.extractLsb'_toNat, Nat.shiftRight_eq_div_pow, joinBytes_toNat]
  omega

/-- The address check passes an address operand's byte, and gives the address back. -/
@[simp] theorem withAddress_addressByte (a : BusAddress) (k : BusAddress → Instr) :
    withAddress (addressByte a) k = .ok (k a) := by
  have h1 : (addressByte a).getLsbD 7 = false := by simp [addressByte]
  have h2 : (addressByte a).extractLsb' 0 7 = a := by
    apply BitVec.eq_of_toNat_eq
    have := a.isLt
    simp only [addressByte, BitVec.extractLsb'_toNat, BitVec.toNat_setWidth, Nat.shiftRight_zero]
    omega
  unfold withAddress
  rw [h1, h2]
  rfl

/-- What passed the address check is the byte of the address taken (R79). -/
theorem withAddress_ok {b : Byte} {k : BusAddress → Instr} {i : Instr} (h : withAddress b k = .ok i) :
    ∃ a, b = addressByte a ∧ i = k a := by
  unfold withAddress at h
  split at h
  · cases h
  · rename_i h7
    cases h
    refine ⟨_, ?_, rfl⟩
    apply BitVec.eq_of_getLsbD_eq
    intro j hj
    by_cases hj7 : j < 7
    · simp [addressByte, hj7, hj]
    · obtain rfl : j = 7 := by omega
      simp only [Bool.not_eq_true] at h7
      rw [h7]
      simp [addressByte]

end Sys2Proof
end

