-- ==== Sys2Proof/Laws/Memory.lean ====
section
/-! SUPPORT. The laws of the buffer's memory: a read after a write, and the canonical form. -/
namespace Sys2Proof.Machine

@[simp] theorem Memory.read_write_same (m : Memory) (i : Nat) (v : Byte) :
    Memory.read? (Memory.write m i v) i = some v := by
  induction m with
  | nil => simp [Memory.write, Memory.read?]
  | cons c rest ih =>
    rcases lt_trichotomy i c.1 with h | h | h
    · simp [Memory.write, Memory.read?, h]
    · simp [Memory.write, Memory.read?, h]
    · simp [Memory.write, Memory.read?, Nat.lt_asymm h, Nat.ne_of_gt h, Nat.ne_of_lt h, ih]

theorem Memory.read_write_other {m : Memory} {i j : Nat} (v : Byte) (h : j ≠ i) :
    Memory.read? (Memory.write m i v) j = Memory.read? m j := by
  induction m with
  | nil => simp [Memory.write, Memory.read?, h.symm]
  | cons c rest ih =>
    rcases lt_trichotomy i c.1 with h' | h' | h'
    · simp [Memory.write, Memory.read?, h', h.symm]
    · have : c.1 ≠ j := fun e => h (by omega)
      simp [Memory.write, Memory.read?, h', this]
    · simp [Memory.write, Memory.read?, Nat.lt_asymm h', Nat.ne_of_gt h', ih]

theorem Memory.mem_write {m : Memory} {i : Nat} {v : Byte} {d : Host.Cell} (h : d ∈ Memory.write m i v) :
    d = (i, v) ∨ d ∈ m := by
  induction m with
  | nil => simpa [Memory.write] using h
  | cons c rest ih =>
    simp only [Memory.write] at h
    split at h
    · simpa using h
    · split at h
      · rcases List.mem_cons.1 h with h | h
        · exact .inl h
        · exact .inr (List.mem_cons_of_mem _ h)
      · rcases List.mem_cons.1 h with h | h
        · exact .inr (by simp [h])
        · exact (ih h).imp_right (List.mem_cons_of_mem _)

/-- A write keeps the canonical form; a read changes nothing. -/
theorem Memory.write_wf {m : Memory} {i : Nat} {v : Byte} (h : Memory.wf m = true) :
    Memory.wf (Memory.write m i v) = true := by
  induction m with
  | nil => simp [Memory.write, Memory.wf]
  | cons c rest ih =>
    simp only [Memory.wf, Bool.and_eq_true, List.all_eq_true, decide_eq_true_eq] at h
    simp only [Memory.write]
    split
    · rename_i hi
      simp only [Memory.wf, Bool.and_eq_true, List.all_eq_true, decide_eq_true_eq, List.mem_cons, forall_eq_or_imp]
      exact ⟨⟨hi, fun d hd => Nat.lt_trans hi (h.1 d hd)⟩, h⟩
    · split
      · rename_i hi
        subst hi
        simp only [Memory.wf, Bool.and_eq_true, List.all_eq_true, decide_eq_true_eq]
        exact h
      · rename_i h1 h2
        simp only [Memory.wf, Bool.and_eq_true, List.all_eq_true, decide_eq_true_eq]
        refine ⟨fun d hd => ?_, ih h.2⟩
        rcases Memory.mem_write hd with rfl | hd
        · show c.1 < i
          omega
        · exact h.1 d hd

theorem State.resetWith_buf_wf (p : Params) : Memory.wf (State.resetWith p).buf = true := rfl

end Sys2Proof.Machine
end

