-- ==== Sys2Proof/Laws/Trace.lean ====
section
/-! SUPPORT. What granted primitives and stages add to the trace: their bus operations and no lockup recovery. -/
namespace Sys2Proof.Machine

@[simp] theorem busOps_append (a b : List HbOp) : busOps (a ++ b) = busOps a ++ busOps b := by simp [busOps]

@[simp] theorem busOps_nil : busOps [] = [] := rfl

@[simp] theorem busOps_cons (o : HbOp) (l : List HbOp) :
    busOps (o :: l) = if o.isRead = true then busOps l else o :: busOps l := by
  cases h : o.isRead <;> simp [busOps, h]

@[simp] theorem busOps_polls (n : Nat) (on : WaitOn) : busOps (List.replicate n on.pollOp) = [] := by
  cases on <;> simp [busOps, WaitOn.pollOp, HbOp.isRead, HbOp.isPoll]

@[simp] theorem count_forceReset_polls (n : Nat) (on : WaitOn) :
    (List.replicate n on.pollOp).count .forceReset = 0 := by
  cases on <;> simp [WaitOn.pollOp, List.count_replicate]

theorem Prim.busOp_not_read (p : Prim) : p.busOp.isRead = false := by
  cases p <;> simp [Prim.busOp, HbOp.isRead, HbOp.isPoll]

theorem Prim.busOp_ne_forceReset (p : Prim) : p.busOp ≠ .forceReset := by
  cases p <;> simp [Prim.busOp]

theorem polled_busOps (s : State) {op : HbOp} (on : WaitOn) (h : op.isRead = false) :
    busOps (s.polled op on).hbTrace = busOps s.hbTrace ++ [op] := by
  simp [h]

theorem polled_nReset (s : State) {op : HbOp} (on : WaitOn) (h : op ≠ .forceReset) :
    (s.polled op on).nReset = s.nReset := by
  simp [State.nReset, h]

theorem grantedState_busOps (p : Prim) (s : State) :
    busOps (grantedState p s).hbTrace = busOps s.hbTrace ++ [p.busOp] := by
  cases p <;> simp [grantedState, State.succeed, Prim.busOp, HbOp.isRead, HbOp.isPoll]

theorem grantedState_nReset (p : Prim) (s : State) : (grantedState p s).nReset = s.nReset := by
  cases p <;> simp [grantedState, State.succeed, Prim.busOp, State.nReset, List.count_append]

theorem grantedCall_hbTrace (c : Call) (s : State) :
    (grantedCall c s).hbTrace = (grantedState c.prim (s.enterStage c.stage)).hbTrace := by
  unfold grantedCall Call.advance
  cases c.prim <;> rfl

theorem grantedCall_busOps (c : Call) (s : State) :
    busOps (grantedCall c s).hbTrace = busOps s.hbTrace ++ [c.prim.busOp] := by
  rw [grantedCall_hbTrace, grantedState_busOps]
  rfl

theorem grantedCall_nReset (c : Call) (s : State) : (grantedCall c s).nReset = s.nReset := by
  have h := grantedState_nReset c.prim (s.enterStage c.stage)
  unfold State.nReset at h ⊢
  rw [grantedCall_hbTrace, h]
  rfl

/-- A run of granted stages issues the operations of its primitives, in order. -/
theorem afterCalls_busOps (cs : List Call) (s : State) :
    busOps (afterCalls cs s).hbTrace = busOps s.hbTrace ++ cs.map fun c => c.prim.busOp := by
  induction cs generalizing s with
  | nil => simp [afterCalls]
  | cons c cs ih => simp [afterCalls, ih, grantedCall_busOps]

/-- A run of granted stages runs no lockup recovery. -/
theorem afterCalls_nReset (cs : List Call) (s : State) : (afterCalls cs s).nReset = s.nReset := by
  induction cs generalizing s with
  | nil => rfl
  | cons c cs ih => exact (ih _).trans (grantedCall_nReset c s)

end Sys2Proof.Machine
end

