-- ==== Sys2Proof/Laws/Outcome.lean ====
section
/-! SUPPORT. What the outcome of a primitive says about the state it leaves: the one place where the guarded wait and the
status decision are taken apart for all outcomes. -/
namespace Sys2Proof.Machine

/-- Whether a primitive is a receive. -/
def Prim.isReceive : Prim → Bool
  | .recvB _ => true
  | _ => false

/-- Everything R100, R106, R107, R109 and R128 say of a primitive that was in state `s` and stands at `r`. -/
structure PrimSpec (p : Prim) (s : State) (r : Progress × State) : Prop where
  /-- A byte is taken exactly by a receive that succeeds. -/
  rxData : r.2.hbTrace.count .rxData =
    s.hbTrace.count .rxData + if p.isReceive = true ∧ r.1 = .ended .ok then 1 else 0
  rx : p.isReceive = false ∨ r.1 ≠ .ended .ok → r.2.rx = s.rx
  nReset_le : s.nReset ≤ r.2.nReset ∧ r.2.nReset ≤ s.nReset + 1
  ok : r.1 = .ended .ok → r.2.nReset = s.nReset
  stop : p = .stop → r.1 = .ended .ok → r.2.busHeld = false
  stop_st : p = .stop → r.2.st = s.st
  pending : ∀ ph, r.1 = .pending ph → r.2.nReset = s.nReset
  timeout : r.1 = .ended .timeout → r.2.nReset = s.nReset + 1
  nack : ∀ x, r.1 = .ended (.nack x) → x = r.2.st ∧ judge s.params.codes p x = .nack
  fault : ∀ x, r.1 = .ended (.fault x) →
    x = r.2.st ∧ judge s.params.codes p x = .other ∧ p ≠ .stop ∧ r.2.nReset = s.nReset + 1
  fails : ∀ o, r.1 = .ended o → o ≠ .ok → r.2.busHeld = false
  nackStop : r.1 = .pending .nackStop → judge s.params.codes p r.2.st = .nack

theorem nReset_eq (s : State) : s.nReset = s.hbTrace.count .forceReset := rfl

@[simp] theorem count_rxData_polls (n : Nat) (on : WaitOn) : (List.replicate n on.pollOp).count .rxData = 0 := by
  cases on <;> simp [WaitOn.pollOp, List.count_replicate]

/-- A stop from its wait on. -/
theorem awaitStop_spec (a : Answer) (s : State) : PrimSpec .stop s (awaitStop a s) := by
  have e := guardedWait_eq s .stopDone a.polls
  generalize pollWait .stopDone s.timeoutMs s.t0 a.polls = w at e
  unfold awaitStop
  rw [e]
  rcases w with ⟨_ | _ | _, n⟩ <;> constructor <;> simp [nReset_eq, Prim.isReceive, List.count_append]

/-- What comes before a wait leaves the parts an outcome speaks of, but for operations that are none of its own. -/
theorem PrimSpec.of {p : Prim} {s u : State} {r : Progress × State} (h : PrimSpec p u r)
    (hp : u.params = s.params) (hst : p = .stop → u.st = s.st) (hrx : u.rx = s.rx)
    (hd : u.hbTrace.count .rxData = s.hbTrace.count .rxData) (hn : u.nReset = s.nReset) : PrimSpec p s r := by
  constructor
  · rw [h.rxData, hd]
  · intro k; rw [h.rx k, hrx]
  · rw [← hn]; exact h.nReset_le
  · intro k; rw [← hn]; exact h.ok k
  · exact h.stop
  · intro k; rw [← hst k]; exact h.stop_st k
  · intro ph k; rw [← hn]; exact h.pending ph k
  · intro k; rw [← hn]; exact h.timeout k
  · rw [← hp]; exact h.nack
  · rw [← hp, ← hn]; exact h.fault
  · exact h.fails
  · rw [← hp]; exact h.nackStop

/-- A primitive's first two actions keep what an outcome speaks of. -/
theorem PrimSpec.begun {p : Prim} {s : State} {now : Millis} {op : HbOp} {r : Progress × State}
    (h : PrimSpec p (s.dropAnswer.issue now op) r) (h1 : op ≠ .rxData) (h2 : op ≠ .forceReset) : PrimSpec p s r := by
  refine h.of ?_ ?_ ?_ ?_ ?_ <;> simp [nReset_eq, List.count_append, h1, h2]

/-- A whole stop. -/
theorem primStop_spec (s : State) : PrimSpec .stop s (primStop s) :=
  (awaitStop_spec _ _).begun (by simp) (by simp)

/-- The NACK path: the outcome of its stop is dropped (R109). -/
theorem dropStopOutcome_spec {p : Prim} {s : State} {r : Progress × State} (h : PrimSpec .stop s r) (hp : p ≠ .stop)
    (hj : judge s.params.codes p s.st = .nack) : PrimSpec p s (dropStopOutcome s.st r) := by
  have hst := h.stop_st rfl
  rcases r with ⟨o | ph, t⟩
  · have hh : t.busHeld = false := by
      by_cases k : o = .ok
      · exact h.stop rfl (by rw [k])
      · exact h.fails o rfl k
    have h1 := h.rxData
    have h2 := h.rx (.inl rfl)
    have h3 := h.nReset_le
    simp only [Prim.isReceive, Bool.false_eq_true, false_and, if_false] at h1
    constructor <;> simp_all [dropStopOutcome]
  · have h1 := h.rxData
    have h2 := h.rx (.inl rfl)
    have h3 := h.nReset_le
    have h4 := h.pending ph rfl
    simp only [Prim.isReceive, Bool.false_eq_true, false_and, if_false] at h1
    constructor <;> simp_all [dropStopOutcome]

/-- The status decision. -/
theorem decideStatus_spec {p : Prim} (hp : p ≠ .stop) (a : Answer) (s : State) :
    PrimSpec p s (decideStatus p a s) := by
  cases hj : judge s.params.codes p s.st
  · rw [decideStatus, hj]
    cases p <;> constructor <;> simp_all [State.succeed, nReset_eq, Prim.isReceive, List.count_append]
  · rw [decideStatus, hj]
    exact dropStopOutcome_spec (primStop_spec s) hp hj
  · rw [decideStatus, hj]
    constructor <;> simp_all [nReset_eq, List.count_append]

/-- A status-reading primitive from its wait on. -/
theorem awaitComplete_spec {p : Prim} (hp : p ≠ .stop) (a : Answer) (s : State) :
    PrimSpec p s (awaitComplete p a s) := by
  have e := guardedWait_eq s .complete a.polls
  generalize pollWait .complete s.timeoutMs s.t0 a.polls = w at e
  unfold awaitComplete
  rw [e]
  rcases w with ⟨_ | _ | _, n⟩
  · refine PrimSpec.of (s := s) (decideStatus_spec hp a _) ?_ ?_ ?_ ?_ ?_
    · simp
    · exact fun k => absurd k hp
    · simp
    · simp [List.count_append]
    · simp [nReset_eq, List.count_append]
  · constructor <;> simp_all [nReset_eq, List.count_append]
  · constructor <;> simp_all [nReset_eq, List.count_append]

/-- A primitive from its wait on. -/
theorem awaitPrim_spec (p : Prim) (a : Answer) (s : State) : PrimSpec p s (awaitPrim p a s) := by
  by_cases hp : p = .stop
  · subst hp
    exact awaitStop_spec a s
  · have e : awaitPrim p a s = awaitComplete p a s := by cases p <;> first | rfl | exact absurd rfl hp
    rw [e]
    exact awaitComplete_spec hp a s

/-- A primitive from its beginning (R100 to R109). -/
theorem runPrim_spec (p : Prim) (s : State) : PrimSpec p s (runPrim p s) :=
  (awaitPrim_spec p _ _).begun (by cases p <;> simp [Prim.busOp]) p.busOp_ne_forceReset

theorem dropAnswer_nReset (s : State) : s.dropAnswer.nReset = s.nReset := by simp [nReset_eq]

/-- A primitive that goes on polling (R125); the stop of a NACK path is only ever reached with a NACK status in `st`. -/
theorem resumePrim_spec (ph : Phase) (p : Prim) (s : State)
    (h : ph = .nackStop → judge s.params.codes p s.st = .nack) : PrimSpec p s (resumePrim ph p s) := by
  cases ph with
  | action => exact (awaitPrim_spec p _ _).of (by simp) (by simp) (by simp) (by simp) (dropAnswer_nReset s)
  | nackStop =>
    have hj := h rfl
    have hp : p ≠ .stop := by
      rintro rfl
      simp [judge, successSet, nackSet] at hj
    exact dropStopOutcome_spec
      ((awaitStop_spec s.answer s.dropAnswer).of (by simp) (by simp) (by simp) (by simp) (dropAnswer_nReset s)) hp hj

end Sys2Proof.Machine
end

