-- ==== Sys2Proof/Laws/PerInstr.lean ====
section
/-! SUPPORT. A fact about every command as syntax: the shape of its packet (spec/30_encoding.md R71, R73, R74). -/
namespace Sys2Proof.Laws.PacketShape

/-- The packet of a well-formed command begins with a byte of the opcode map and has the length R73 gives it. -/
def Statement (i : Instr) : Prop := i.wellFormed = true → ruleLength (encode i) = some (encode i).length

theorem start : Statement .start := fun _ => rfl

theorem senda (b : Byte) : Statement (.senda b) := fun _ => rfl

theorem sendb (b : Byte) : Statement (.sendb b) := fun _ => rfl

theorem recvbN : Statement .recvbN := fun _ => rfl

theorem recvbA : Statement .recvbA := fun _ => rfl

theorem stop : Statement .stop := fun _ => rfl

/-- The length field of a payload that fits says its length (R83). -/
theorem lengthField {d : List Byte} (h : payloadFits d = true) :
    256 * (hiByte (BitVec.ofNat 16 d.length)).toNat + (loByte (BitVec.ofNat 16 d.length)).toNat = d.length := by
  have h : d.length ≤ 65535 := by simpa [payloadFits] using h
  simp only [hiByte, loByte, BitVec.extractLsb'_toNat, BitVec.toNat_ofNat, Nat.shiftRight_eq_div_pow]
  omega

theorem writeP8 (a : BusAddress) (p : Byte) (d : List Byte) : Statement (.writeP8 a p d) := fun h => by
  have e := lengthField (d := d) h
  simp [encode, ruleLength, lengthBytes, e]
  omega

theorem writeP16 (a : BusAddress) (p : Word16) (d : List Byte) : Statement (.writeP16 a p d) := fun h => by
  have e := lengthField (d := d) h
  simp [encode, ruleLength, lengthBytes, e]
  omega

theorem read (a : BusAddress) (n : Word16) : Statement (.read a n) := fun _ => rfl

theorem wrrdP8 (a : BusAddress) (p : Byte) (n : Word16) : Statement (.wrrdP8 a p n) := fun _ => rfl

theorem wrrdP16 (a : BusAddress) (p : Word16) (n : Word16) : Statement (.wrrdP16 a p n) := fun _ => rfl

theorem avail : Statement .avail := fun _ => rfl

theorem recv : Statement .recv := fun _ => rfl

theorem setto (t : Word16) : Statement (.setto t) := fun _ => rfl

theorem getto : Statement .getto := fun _ => rfl

end Sys2Proof.Laws.PacketShape
end

