-- ==== Sys2Proof/Laws/Receives.lean ====
section
/-! SUPPORT. What granted stages do to the ReceiveBuffer: a receive appends its byte, every other stage nothing. -/
namespace Sys2Proof.Machine

theorem receivesIn_cons (c : Call) (cs : List Call) :
    receivesIn (c :: cs) = receivesIn cs + if c.isReceive then 1 else 0 := by
  simp only [receivesIn, List.countP_cons, Call.isReceive]
  rfl

theorem receivesIn_append (a b : List Call) : receivesIn (a ++ b) = receivesIn a + receivesIn b := by
  simp [receivesIn]

theorem receivesIn_take_le (cs : List Call) (k : Nat) : receivesIn (cs.take k) ≤ receivesIn cs := by
  conv_rhs => rw [← List.take_append_drop k cs, receivesIn_append]
  omega

@[simp] theorem receivesIn_receiveCalls (n : Nat) : receivesIn (receiveCalls n) = n := by
  induction n with
  | zero => rfl
  | succ n ih => cases n <;> simp_all [receiveCalls, receivesIn]

@[simp] theorem receivesIn_sendCalls (l : List Byte) : receivesIn (sendCalls l) = 0 := by
  simp [receivesIn, sendCalls]

@[simp] theorem receiveCalls_length (n : Nat) : (receiveCalls n).length = n := by
  induction n with
  | zero => rfl
  | succ n ih => cases n <;> simp_all [receiveCalls]

theorem receiveCalls_isReceive {n : Nat} {c : Call} (h : c ∈ receiveCalls n) : c.isReceive = true := by
  induction n with
  | zero => simp [receiveCalls] at h
  | succ n ih =>
    cases n with
    | zero => simp_all [receiveCalls, Call.isReceive]
    | succ n =>
      rcases List.mem_cons.1 h with rfl | h
      · rfl
      · exact ih h

/-- A stage that receives nothing leaves the buffer, its counters and `rx`. -/
theorem grantedCall_of_not_receive {c : Call} (h : c.isReceive = false) (s : State) :
    (grantedCall c s).totalNat = s.totalNat ∧ (grantedCall c s).availableNat = s.availableNat ∧
      (grantedCall c s).buf = s.buf ∧ (grantedCall c s).rx = s.rx := by
  cases e : c.prim <;> simp_all [Call.isReceive, grantedCall, Call.advance, grantedState, State.succeed]

/-- A granted receive appends the controller's byte (R152). -/
theorem grantedCall_of_receive {c : Call} (h : c.isReceive = true) (s : State) :
    (grantedCall c s).totalNat = (s.totalNat + 1) % 2 ^ s.params.idxw ∧
      (grantedCall c s).availableNat = (s.availableNat + 1) % 2 ^ s.params.idxw ∧
      (grantedCall c s).buf = Memory.write s.buf s.totalNat s.answer.rxData ∧
      (grantedCall c s).rx = s.answer.rxData := by
  have e : (s.enterStage c.stage).answer = s.answer := rfl
  cases k : c.prim <;> simp_all [Call.isReceive, grantedCall, Call.advance, grantedState, State.succeed]

/-- A run of granted stages without a receive leaves the buffer. -/
theorem afterCalls_of_no_receive {cs : List Call} (h : receivesIn cs = 0) (s : State) :
    (afterCalls cs s).totalNat = s.totalNat ∧ (afterCalls cs s).availableNat = s.availableNat ∧
      (afterCalls cs s).buf = s.buf ∧ (afterCalls cs s).rx = s.rx := by
  induction cs generalizing s with
  | nil => exact ⟨rfl, rfl, rfl, rfl⟩
  | cons c cs ih =>
    rw [receivesIn_cons] at h
    have hc : c.isReceive = false := by
      cases k : c.isReceive
      · rfl
      · simp [k] at h
    have a := grantedCall_of_not_receive hc s
    have b := ih (by omega) (grantedCall c s)
    exact ⟨b.1.trans a.1, b.2.1.trans a.2.1, b.2.2.1.trans a.2.2.1, b.2.2.2.trans a.2.2.2⟩

/-- A run of granted stages counts its receives and writes no byte outside the ones it counts (R64 (a)). -/
theorem afterCalls_buffer {cs : List Call} {s : State} (hb : s.totalNat + receivesIn cs < 2 ^ s.params.idxw)
    (he : s.availableNat = s.totalNat) :
    (afterCalls cs s).totalNat = s.totalNat + receivesIn cs ∧
      (afterCalls cs s).availableNat = (afterCalls cs s).totalNat ∧
      ∀ j, s.totalNat + receivesIn cs ≤ j ∨ j < s.totalNat →
        Memory.read? (afterCalls cs s).buf j = Memory.read? s.buf j := by
  induction cs generalizing s with
  | nil => simp [afterCalls, receivesIn, he]
  | cons c cs ih =>
    have hp := (grantedCall_frame c s).params
    rw [receivesIn_cons] at hb ⊢
    cases hc : c.isReceive
    · have hg := grantedCall_of_not_receive hc s
      have k := ih (s := grantedCall c s) (by rw [hg.1, hp]; simp [hc] at hb; exact hb) (by rw [hg.1, hg.2.1, he])
      rw [hg.1, hg.2.2.1] at k
      simpa [afterCalls] using k
    · have hg := grantedCall_of_receive hc s
      simp [hc] at hb
      have ht : (s.totalNat + 1) % 2 ^ s.params.idxw = s.totalNat + 1 := Nat.mod_eq_of_lt (by omega)
      have k := ih (s := grantedCall c s) (by rw [hg.1, ht, hp]; omega) (by rw [hg.1, hg.2.1, he])
      rw [hg.1, hg.2.2.1, ht] at k
      simp only [if_true, afterCalls]
      refine ⟨by omega, k.2.1, ?_⟩
      intro j hj
      rw [k.2.2 j (by omega), Memory.read_write_other]
      omega

end Sys2Proof.Machine
end

