-- ==== Sys2Proof/Tests/Slice0.lean ====
section
/-! SUPPORT. The model's own tests, expected results taken from spec/95_test_vectors.md, and the witnesses of the
statements' hypotheses. -/
namespace Sys2Proof.Tests

open Sys2Proof.Machine

/-! ### Answers of the environment, by the names of spec/95_test_vectors.md section 0 -/

/-- `ok(s, v)`: complete at the first poll. -/
def okv (s v : Byte) : Answer := ⟨0, [⟨true, 0⟩], s, v⟩

/-- `ok(s)`. -/
def ok (s : Byte) : Answer := okv s 0

/-- `done`: stop-busy is 0 at the first poll. -/
def done : Answer := ⟨0, [⟨false, 0⟩], 0, 0⟩

/-- `late` for an action polled by `HB.Complete`: not complete after 5000 ms. -/
def late : Answer := ⟨0, [⟨false, 5000⟩], 0, 0⟩

/-- `late` for a stop: still busy after 5000 ms. -/
def lateStop : Answer := ⟨0, [⟨true, 5000⟩], 0, 0⟩

/-- Not complete at the one poll of this step, with no time gone by. -/
def notYet : Answer := ⟨7, [⟨false, 7⟩], 0, 0⟩

/-- The state of the vectors: reset, the timeout at 100, the environment's answers settled. -/
def given (env : List Answer) : State := { State.reset with timeoutMs := 100, env := env }

/-- Table R's start state: three bytes of an earlier read, two unread. -/
def givenR (env : List Answer) : State :=
  { given env with total := 3, available := 2, buf := [(0, 0xE1), (1, 0xE2), (2, 0xE3)] }

/-- The state an outcome leaves. -/
def next? (o : Host.Outcome State Fault Refusal) : Option State :=
  match o with
  | .next s => some s
  | .fault _ => none
  | .refused _ => none

/-- The responses and the bus operations after a command. -/
def seen (i : Instr) (s : State) : Option (List Response × List HbOp) :=
  (next? (exec i s)).map fun t => (t.responses, busOps t.hbTrace)

/-- A response with result `r` and data `d`. -/
def resp (r : Byte) (d : Word16) : Response := ⟨false, r, d⟩

/-- A response to a command, and what the vectors of table B show beside it. -/
def counters (i : Instr) (s : State) : Option (List Response × Nat × Nat) :=
  (next? (exec i s)).map fun t => (t.responses, t.availableNat, t.totalNat)

/-! ### Well-formedness: an ill-formed term for each check -/

/-- A payload of one byte more than the length field can say. -/
theorem payloadFits_long : payloadFits (List.replicate 65536 0) = false := by
  have h : (List.replicate 65536 (0 : Byte)).length = 65536 := List.length_replicate
  rw [payloadFits, h]
  rfl

theorem test_wellFormed_refuses_long_P8 : (Instr.writeP8 0x50 0 (List.replicate 65536 0)).wellFormed = false :=
  payloadFits_long

theorem test_wellFormed_refuses_long_P16 : (Instr.writeP16 0x50 0 (List.replicate 65536 0)).wellFormed = false :=
  payloadFits_long

/-- The longest payload is well formed. -/
theorem test_wellFormed_longest : (Instr.writeP8 0x7F 0xFF (List.replicate 65535 0)).wellFormed = true := by
  have h : (List.replicate 65535 (0 : Byte)).length = 65535 := List.length_replicate
  rw [Instr.wellFormed, payloadFits, h]
  rfl

/-! ### Decoding: table D, one packet for each command -/

theorem test_decode_start : decode [0x01] = .ok .start := by decide
theorem test_decode_senda : decode [0x02, 0xA0] = .ok (.senda 0xA0) := by decide
theorem test_decode_senda_wire_byte : decode [0x02, 0xFF] = .ok (.senda 0xFF) := by decide
theorem test_decode_sendb : decode [0x03, 0x00] = .ok (.sendb 0x00) := by decide
theorem test_decode_recvbN : decode [0x04] = .ok .recvbN := by decide
theorem test_decode_recvbA : decode [0x05] = .ok .recvbA := by decide
theorem test_decode_stop : decode [0x06] = .ok .stop := by decide
theorem test_decode_writeP8 :
    decode [0x10, 0x50, 0x10, 0x00, 0x02, 0xAA, 0xBB] = .ok (.writeP8 0x50 0x10 [0xAA, 0xBB]) := by decide
theorem test_decode_writeP8_empty : decode [0x10, 0x50, 0x10, 0x00, 0x00] = .ok (.writeP8 0x50 0x10 []) := by decide
theorem test_decode_writeP16 :
    decode [0x11, 0x50, 0x01, 0x23, 0x00, 0x01, 0x7F] = .ok (.writeP16 0x50 0x0123 [0x7F]) := by decide
theorem test_decode_read : decode [0x20, 0x68, 0xFF, 0xFF] = .ok (.read 0x68 65535) := by decide
theorem test_decode_wrrdP8 : decode [0x30, 0x50, 0x10, 0x00, 0x03] = .ok (.wrrdP8 0x50 0x10 3) := by decide
theorem test_decode_wrrdP16 :
    decode [0x31, 0x50, 0x01, 0x23, 0x01, 0x00] = .ok (.wrrdP16 0x50 0x0123 256) := by decide
theorem test_decode_avail : decode [0x40] = .ok .avail := by decide
theorem test_decode_recv : decode [0x41] = .ok .recv := by decide
theorem test_decode_setto : decode [0x50, 0x01, 0x00] = .ok (.setto 256) := by decide
theorem test_decode_getto : decode [0x51] = .ok .getto := by decide

/-- Table D's reserved opcodes. -/
theorem test_decode_reserved :
    ∀ pkt ∈ [[0x00], [0x07], [0x12, 0x50, 0x10, 0x00, 0x00], [0x21, 0x68, 0x00, 0x02], [0x60], [0xFF]],
      decode pkt = .error .reservedOpcode := by decide

/-- Table D's packets of a wrong length, and the empty packet (log 15). -/
theorem test_decode_length :
    ∀ pkt ∈ [[0x01, 0x00], [0x02], [0x50, 0x00], [0x20, 0x68, 0x00, 0x02, 0x00], [0x10, 0x50, 0x10, 0x00],
        [0x10, 0x50, 0x10, 0x00, 0x02, 0xAA], [0x10, 0x50, 0x10, 0x00, 0x01, 0xAA, 0xBB], []],
      decode pkt = .error .badLength := by decide

/-- Table D's address operands with bit 7 set. -/
theorem test_decode_address :
    ∀ pkt ∈ [[0x10, 0xD0, 0x10, 0x00, 0x00], [0x20, 0x80, 0x00, 0x01], [0x31, 0xFF, 0x00, 0x00, 0x00, 0x01]],
      decode pkt = .error .addressBit7 := by decide

/-- The packet of `WRITE.P8 0x50, 0x10, [0xAA, 0xBB]` as one number, byte 0 lowest. -/
theorem test_decodeTableWord : decodeTableWord 56 0xBBAA0200105010 = some (.writeP8 0x50 0x10 [0xAA, 0xBB]) := by
  decide

/-- A word shorter than its packet: operand bytes of zeros. -/
theorem test_decodeTableWord_short : decodeTableWord 8 0x20 = some (.read 0 0) := by decide

/-! ### Operands and the guard: tables A, N, T -/

theorem test_table_A :
    [slaW 0x3C, slaR 0x3C, slaW 0x7F, slaR 0x7F, slaW 0, slaR 0] = [0x78, 0x79, 0xFE, 0xFF, 0x00, 0x01] := by decide

theorem test_table_N :
    [normalise 32 0, normalise 32 32, normalise 32 33, normalise 1 2, normalise 300 301] = [1, 32, 32, 1, 300] := by
  decide

theorem test_table_T :
    [expired 100 1000 1099, expired 100 1000 1100, expired 32 0xFFFFFFF0 0x10, expired 33 0xFFFFFFF0 0x10,
      expired 0 0 5000] = [false, true, true, false, false] := by decide

/-- G1: completion is tested before the timeout. -/
theorem test_G1 : pollWait .complete 100 0 [⟨true, 500⟩] = (.done, 1) := by decide

/-! ### The primitive commands: table P -/

theorem test_PS2 : seen .start (given [ok 0x10]) = some ([resp 0 0], [.issueStart]) := by decide
theorem test_PS3 : seen .start (given [ok 0x38]) = some ([resp 0x38 0], [.issueStart, .forceReset]) := by decide
theorem test_PA2 : seen (.senda 0xA0) (given [ok 0x40]) = some ([resp 0 0], [.transmit 0xA0]) := by decide
theorem test_PA6 : seen (.senda 0xA0) (given [ok 0x20, lateStop]) =
    some ([resp 0x20 0], [.transmit 0xA0, .issueStop, .forceReset]) := by decide
theorem test_PB2 : seen (.sendb 0x10) (given [ok 0x30, done]) =
    some ([resp 0x30 0], [.transmit 0x10, .issueStop]) := by decide
theorem test_PB4 : seen (.sendb 0x10) (given [ok 0x20]) =
    some ([resp 0x20 0], [.transmit 0x10, .forceReset]) := by decide
theorem test_PR1 : seen .recvbA (given [okv 0x50 0x7E]) = some ([resp 0 0x007E], [.receive true]) := by decide
theorem test_PR3 : seen .recvbA (given [okv 0x58 0x7E]) =
    some ([resp 0x58 0], [.receive true, .forceReset]) := by decide
theorem test_PR7 : seen .recvbN (given [okv 0x58 0xFF]) = some ([resp 0 0x00FF], [.receive false]) := by decide
theorem test_PR8 : seen .recvbN (given [okv 0x50 0x01]) =
    some ([resp 0x50 0], [.receive false, .forceReset]) := by decide
theorem test_PT1 : seen .stop (given [done]) = some ([resp 0 0], [.issueStop]) := by decide
theorem test_PT2 : seen .stop (given [lateStop]) = some ([resp 1 0], [.issueStop, .forceReset]) := by decide

/-! ### The transactions: tables W and R -/

theorem test_W1 : seen (.writeP8 0x50 0x10 [0xAA, 0xBB]) (given [ok 0x08, ok 0x18, ok 0x28, ok 0x28, ok 0x28, done]) =
    some ([resp 0 0], [.issueStart, .transmit 0xA0, .transmit 0x10, .transmit 0xAA, .transmit 0xBB, .issueStop]) := by
  decide

theorem test_W10 :
    seen (.writeP8 0x50 0x10 [0xAA, 0xBB, 0xCC]) (given [ok 0x08, ok 0x18, ok 0x28, ok 0x28, ok 0x30, done]) =
      some ([resp 3 0], [.issueStart, .transmit 0xA0, .transmit 0x10, .transmit 0xAA, .transmit 0xBB, .issueStop]) := by
  decide

theorem test_W3b : seen (.writeP16 0x50 0x0005 []) (given [ok 0x08, ok 0x18, ok 0x28, ok 0x28, done]) =
    some ([resp 0 0], [.issueStart, .transmit 0xA0, .transmit 0x00, .transmit 0x05, .issueStop]) := by decide

/-- W12's answers on a 16-bit pointer: the stop times out, result 7. -/
theorem test_W12_P16 : seen (.writeP16 0x7F 0xFFFF []) (given [ok 0x08, ok 0x18, ok 0x28, ok 0x28, lateStop]) =
    some ([resp 7 0], [.issueStart, .transmit 0xFE, .transmit 0xFF, .transmit 0xFF, .issueStop, .forceReset]) := by
  decide

/-- R1: the response, `available`, `total` and the buffer. -/
theorem test_R1 :
    (next? (exec (.read 0x68 2) (givenR [ok 0x08, ok 0x40, okv 0x50 0x12, okv 0x58 0x34, done]))).map
        (fun t => (t.responses, t.availableNat, t.totalNat, t.buf)) =
      some ([resp 0 0], 2, 2, [(0, 0x12), (1, 0x34), (2, 0xE3)]) := by decide

/-- R7: a receive times out after one byte. -/
theorem test_R7 : counters (.read 0x68 3) (givenR [ok 0x08, ok 0x40, okv 0x50 0x12, late]) =
    some ([resp 6 0], 1, 1) := by decide

theorem test_R11 :
    seen (.wrrdP8 0x50 0x10 3) (givenR [ok 0x08, ok 0x18, ok 0x28, ok 0x10, ok 0x40, okv 0x50 0x11, okv 0x50 0x22,
        okv 0x58 0x33, done]) =
      some ([resp 0 0], [.issueStart, .transmit 0xA0, .transmit 0x10, .issueStart, .transmit 0xA1, .receive true,
        .receive true, .receive false, .issueStop]) := by decide

theorem test_R13 : seen (.wrrdP8 0x50 0x10 3) (givenR [ok 0x08, ok 0x18, ok 0x28, late]) =
    some ([resp 4 0], [.issueStart, .transmit 0xA0, .transmit 0x10, .issueStart, .forceReset]) := by decide

theorem test_R12 :
    seen (.wrrdP16 0x50 0x0123 1) (givenR [ok 0x08, ok 0x18, ok 0x28, ok 0x28, ok 0x10, ok 0x40, okv 0x58 0x9C,
        done]) =
      some ([resp 0 0], [.issueStart, .transmit 0xA0, .transmit 0x01, .transmit 0x23, .issueStart, .transmit 0xA1,
        .receive false, .issueStop]) := by decide

/-- R16c's answers on a 16-bit pointer: the read address is refused, result 5, the buffer empty. -/
theorem test_R16c_P16 : counters (.wrrdP16 0x50 0x0123 1) (givenR [ok 0x08, ok 0x18, ok 0x28, ok 0x28, ok 0x10,
    ok 0x48, done]) = some ([resp 5 0], 0, 0) := by decide

/-! ### The consumer and timeout commands: table B -/

/-- Sequence B2's start state. -/
def givenB : State := { given [] with total := 3, available := 3, buf := [(0, 0x00), (1, 0xFF), (2, 0x7E)] }

theorem test_B1_avail : counters .avail State.reset = some ([resp 0 0], 0, 0) := by decide
theorem test_B2_avail : counters .avail givenB = some ([resp 0 3], 3, 3) := by decide
theorem test_B1_recv : counters .recv State.reset = some ([resp 0 0], 0, 0) := by decide
theorem test_B2_recv : counters .recv { givenB with available := 2 } = some ([resp 0 0x00FF], 1, 3) := by decide
theorem test_B3_setto : (next? (exec (.setto 256) (given []))).map State.timeoutMs = some 0x0100 := by decide
theorem test_B3_getto : counters .getto (given []) = some ([resp 0 0x0064], 0, 0) := by decide

/-! ### The step: the port, a wait that goes on, reset -/

/-- From reset, the presented packet is the first command the block runs. -/
theorem test_step_runs_fetched : (next? (step (State.reset.withFetchWord 24 0x640050))).map State.timeoutMs =
    some 100 := by decide

/-- PS7: with the guard disabled the block keeps polling: busy, no response. -/
theorem test_PS7 : (next? (step ({ given [notYet] with timeoutMs := 0 }.withFetchWord 8 0x01))).map
    (fun t => (t.busy, t.responses, busOps t.hbTrace)) = some (true, [], [.issueStart]) := by decide

/-- A wait that goes on in the next step and is granted there. -/
theorem test_wait_resumes : (next? (step { given [ok 0x08] with
    busy := true, job := some (.primitive .action .start) })).map (fun t => (t.busy, t.responses, t.busHeld)) =
      some (false, [resp 0 0], true) := by decide

/-- An illegal packet: the one response, nothing else (R88). -/
theorem test_step_illegal : step (State.reset.present [0x00]) =
    .next { State.reset with responses := [⟨true, 0, 0⟩] } := rfl

/-- Reset ends a command that waits: idle, no response (R221). -/
theorem test_reset_in_command : (next? (step { given [] with
    resetLine := true, busy := true, job := some (.primitive .action .start), hbTrace := [.issueStart] })).map
      (fun t => (t.busy, t.responses, t.hbTrace, t.timeoutMs)) = some (false, [], [], 0) := by decide

/-! ### Witnesses: concrete states and operands that meet the hypotheses of each statement -/

/-- A busy block that waits in this command. -/
def waiting (j : Job) (env : List Answer) : State := { given env with busy := true, job := some j }

/-- The state in which a status has just been read, as the send commands' statements write it. -/
def afterStatus (s : State) (op : HbOp) : State :=
  { s.polled op .complete with st := s.answer.status, hbTrace := (s.polled op .complete).hbTrace ++ [.status] }

theorem witness_StepRunsDecodedCommand :
    (State.reset.present [0x01]).resetLine = false ∧ (State.reset.present [0x01]).busy = false ∧
      (State.reset.present [0x01]).offers = [0x01] :: [] ∧ decode [0x01] = .ok .start := by decide

/-- The longest payload, at the highest address and pointer. -/
theorem witness_DecodeOfEncode : (Instr.writeP16 0x7F 0xFFFF (List.replicate 65535 0xFF)).wellFormed = true := by
  have h : (List.replicate 65535 (0xFF : Byte)).length = 65535 := List.length_replicate
  rw [Instr.wellFormed, payloadFits, h]
  rfl

theorem witness_EncodeOfDecode : decode [0x31, 0x7F, 0xFF, 0xFF, 0xFF, 0xFF] = .ok (.wrrdP16 0x7F 65535 65535) := by
  decide

/-- One packet for each cause, the lengths one off the rule's, the address one past 0x7F; a bare opcode. -/
theorem witness_IllegalPacketsRefused :
    ruleLength [0x07] = none ∧ ruleLength [0x50, 0x00] = some 3 ∧ ruleLength [0x10, 0x50, 0x10, 0x00, 0x01] = some 6 ∧
      ruleLength [0x20, 0x80, 0x00, 0x01] = some 4 ∧ hasAddress 0x20 = true ∧
      ([0x80, 0x00, 0x01] : List Byte).headD 0 = 0x80 ∧
      (State.reset.present [0x07]).resetLine = false ∧ (State.reset.present [0x07]).busy = false ∧
      (State.reset.present [0x07]).offers = (0x07 :: []) :: [] ∧ decode (0x07 :: []) = .error .reservedOpcode ∧
      decode (0x50 :: [0x00]) = .error .badLength ∧ decode (0x20 :: [0x80, 0x00, 0x01]) = .error .addressBit7 := by
  decide

/-- Table N around 0 and around the capacity 32: each clause at its boundary. -/
theorem witness_CountNormalised :
    (0 : Word16) = 0 ∧ Params.default.capacity < (33 : Word16).toNat ∧ (32 : Word16) ≠ 0 ∧
      (32 : Word16).toNat ≤ Params.default.capacity ∧ (1 : Word16) ≠ 0 ∧ (1 : Word16).toNat ≤ Params.default.capacity := by
  decide

theorem witness_StatusSetsDisjoint :
    0x18 ∈ successSet Params.default.codes (.sendA 0xA0) ∧ 0x28 ∈ successSet Params.default.codes (.sendB 0) := by
  decide

/-- Across a wrap of the counter (table T), and the longest wait. -/
theorem witness_ExpiryIsModular : 32 < 2 ^ 32 ∧ 2 ^ 32 - 1 < 2 ^ 32 := by decide

/-- Each way a wait stands: done although the time is out (G1), expired (G2), going on; the polls as the statement cuts
them. -/
theorem witness_GuardedWaitDecides :
    let quiet := fun q : Poll => WaitOn.complete.holds q.flag = false ∧ expired 100 0 q.now = false
    [⟨false, 99⟩, ⟨true, 500⟩] = [⟨false, 99⟩] ++ (⟨true, 500⟩ : Poll) :: [] ∧ (∀ q ∈ [⟨false, 99⟩], quiet q) ∧
      WaitOn.complete.holds true = true ∧ WaitOn.complete.holds false = false ∧ expired 100 0 100 = true ∧
      ((given []).guardedWait .complete [⟨false, 99⟩, ⟨true, 500⟩]).1 = .done ∧
      ((given []).guardedWait .complete [⟨false, 99⟩, ⟨false, 100⟩]).1 = .timeout ∧
      ((given []).guardedWait .stopDone [⟨true, 99⟩]).1 = .undecided := by
  refine ⟨rfl, ?_, rfl, rfl, by decide, by decide, by decide, by decide⟩
  simp only [List.mem_singleton, forall_eq]
  decide

/-- Cut in the first primitive, in the pointer byte of a write, in the stop of a read, and in the stop of a NACK path. -/
theorem witness_CutOfWaitUnobservable :
    (given []).resetLine = false ∧
      grantsAll Params.default.codes 100 ((commandPrims 32 .start).take 0) [] = true ∧
      (commandPrims 32 .start)[0]? = some .start ∧ notYet.primWait 100 .start = .undecided ∧
      grantsAll Params.default.codes 100 ((commandPrims 32 (.writeP8 0x50 0x10 [])).take 2) [ok 0x08, ok 0x18] = true ∧
      (commandPrims 32 (.writeP8 0x50 0x10 []))[2]? = some (.sendB 0x10) ∧
      notYet.primWait 100 (.sendB 0x10) = .undecided ∧
      grantsAll Params.default.codes 100 ((commandPrims 32 (.read 0x68 1)).take 3) [ok 0x08, ok 0x40, ok 0x58] = true ∧
      (commandPrims 32 (.read 0x68 1))[3]? = some .stop ∧
      ({ notYet with polls := [⟨true, 7⟩] } : Answer).primWait 100 .stop = .undecided ∧
      (ok 0x30).primWait 100 (.sendB 0x10) = .done ∧ judge Params.default.codes (.sendB 0x10) 0x30 = .nack ∧
      ({ notYet with polls := [⟨true, 7⟩] } : Answer).waitEnd .stopDone 100 = .undecided := by decide

/-- A start that waits with the guard disabled (G3), over two steps; the same in the stop of a NACK path. -/
theorem witness_DisabledGuardHangs :
    let s := { waiting (.primitive .action .start) [notYet, late] with timeoutMs := 0 }
    let u := { waiting (.primitive .nackStop (.sendB 0)) [lateStop, lateStop] with timeoutMs := 0 }
    (s.busy = true ∧ s.job = some (.primitive .action .start) ∧ (Job.primitive .action .start).fits s = true ∧
        s.resetLine = false ∧ s.timeoutMs = 0 ∧
        ∀ a ∈ s.upcoming 2, ∀ q ∈ a.polls, (Job.primitive .action .start).waitsOn.holds q.flag = false) ∧
      u.busy = true ∧ (Job.primitive .nackStop (.sendB 0)).fits u = true ∧
        ∀ a ∈ u.upcoming 2, ∀ q ∈ a.polls, (Job.primitive .nackStop (.sendB 0)).waitsOn.holds q.flag = false := by
  decide

/-- START: both successes, a status that is neither, an expired wait. -/
theorem witness_StartCommand :
    (ok 0x08).waitEnd .complete 100 = .done ∧ (ok 0x08).status = Params.default.codes.start ∧
      (ok 0x10).status = Params.default.codes.repStart ∧ (ok 0x38).waitEnd .complete 100 = .done ∧
      (ok 0x38).status ≠ Params.default.codes.start ∧ (ok 0x38).status ≠ Params.default.codes.repStart ∧
      late.waitEnd .complete 100 = .timeout ∧ (given [late]).answer = late := by decide

/-- SENDA: each clause, the inner stop done and expired. -/
theorem witness_SendAddressCommand :
    let c := Params.default.codes
    let inner := fun b => (afterStatus (given [ok 0x20, b]) (.transmit 0xA0)).answer.waitEnd .stopDone 100
    (ok 0x18).waitEnd .complete 100 = .done ∧ (ok 0x18).status ∈ [c.mtSlaAck, c.mrSlaAck] ∧
      (ok 0x40).status ∈ [c.mtSlaAck, c.mrSlaAck] ∧ (ok 0x20).status ∈ [c.mtSlaNack, c.mrSlaNack] ∧
      (ok 0x48).status ∈ [c.mtSlaNack, c.mrSlaNack] ∧ inner done = .done ∧ inner lateStop = .timeout ∧
      (ok 0x28).status ∉ [c.mtSlaAck, c.mrSlaAck] ∧ (ok 0x28).status ∉ [c.mtSlaNack, c.mrSlaNack] ∧
      late.waitEnd .complete 100 = .timeout := by decide

/-- SENDB: each clause; an address code is neither. -/
theorem witness_SendByteCommand :
    let c := Params.default.codes
    let inner := fun b => (afterStatus (given [ok 0x30, b]) (.transmit 0x10)).answer.waitEnd .stopDone 100
    (ok 0x28).waitEnd .complete 100 = .done ∧ (ok 0x28).status ∈ [c.mtDataAck] ∧ (ok 0x30).status ∈ [c.mtDataNack] ∧
      inner done = .done ∧ inner lateStop = .timeout ∧ (ok 0x20).status ∉ [c.mtDataAck] ∧
      (ok 0x20).status ∉ [c.mtDataNack] ∧ late.waitEnd .complete 100 = .timeout := by decide

theorem witness_ReceiveAckCommand :
    (okv 0x50 0x7E).waitEnd .complete 100 = .done ∧ (okv 0x50 0x7E).status = Params.default.codes.mrDataAck ∧
      (okv 0x58 0x7E).status ≠ Params.default.codes.mrDataAck ∧ late.waitEnd .complete 100 = .timeout := by
  decide

theorem witness_ReceiveNoAckCommand :
    (okv 0x58 0x01).waitEnd .complete 100 = .done ∧ (okv 0x58 0x01).status = Params.default.codes.mrDataNack ∧
      (okv 0x50 0x01).status ≠ Params.default.codes.mrDataNack ∧ late.waitEnd .complete 100 = .timeout := by
  decide

theorem witness_StopCommand :
    done.waitEnd .stopDone 100 = .done ∧ lateStop.waitEnd .stopDone 100 = .timeout := by decide

/-- Each primitive's own wait going on, and the stop of the NACK path of either send. -/
theorem witness_UndecidedWaitSuspends :
    let stopGoesOn : Answer := { done with polls := [⟨true, 7⟩] }
    (∀ q ∈ [Prim.start, .recvB true, .recvB false, .sendA 0xA0, .sendB 0x10], notYet.primWait 100 q = .undecided) ∧
      stopGoesOn.primWait 100 .stop = .undecided ∧ (ok 0x20).primWait 100 (.sendA 0xA0) = .done ∧
      judge Params.default.codes (.sendA 0xA0) 0x20 = .nack ∧
      (afterStatus (given [ok 0x20, stopGoesOn]) (.transmit 0xA0)).answer.waitEnd .stopDone 100 = .undecided ∧
      (ok 0x30).primWait 100 (.sendB 0x10) = .done ∧ judge Params.default.codes (.sendB 0x10) 0x30 = .nack ∧
      (afterStatus (given [ok 0x30, stopGoesOn]) (.transmit 0x10)).answer.waitEnd .stopDone 100 = .undecided := by
  decide

theorem witness_PrimitiveCommandsFrame :
    (∃ t, exec .stop (given [done]) = .next t) ∧ ∃ t, exec (.senda 0xA0) (given [ok 0x20, lateStop]) = .next t :=
  ⟨⟨_, rfl⟩, _, rfl⟩

/-- The hypothesis of the statement on writes, for these bytes to this address. -/
def writeGranted (a : BusAddress) (bytes : List Byte) (s : State) : Bool :=
  grantsAll s.params.codes s.timeoutMs ([.start, .sendA (slaW a)] ++ bytes.map Prim.sendB ++ [.stop])
    (s.upcoming (bytes.length + 3))

/-- The hypothesis of the statements on reads, for `n` bytes after the primitives `lead`. -/
def readGranted (lead : List Prim) (n : Nat) (s : State) : Bool :=
  grantsAll s.params.codes s.timeoutMs
    (lead ++ List.replicate (n - 1) (Prim.recvB true) ++ [.recvB false, .stop]) (s.upcoming (lead.length + n + 1))

/-- W2's empty payload, and W3's 16-bit pointer with one byte. -/
theorem witness_WriteTransactionSucceeds :
    writeGranted 0 [0x00] (given [ok 0x08, ok 0x18, ok 0x28, done]) = true ∧
      writeGranted 0x7F [0xFF, 0xFF, 0x00] (given [ok 0x08, ok 0x18, ok 0x28, ok 0x28, ok 0x28, done]) = true := by
  decide

/-- R2: a count of 0 reads one byte; R1: two bytes. -/
theorem witness_DirectReadSucceeds :
    normalise 32 0 = 1 ∧ normalise 32 2 = 2 ∧
      readGranted [.start, .sendA (slaR 0x68)] 1 (givenR [ok 0x08, ok 0x40, okv 0x58 0x12, done]) = true ∧
      readGranted [.start, .sendA (slaR 0x68)] 2
        (givenR [ok 0x08, ok 0x40, okv 0x50 0x12, okv 0x58 0x34, done]) = true := by decide

/-- R17: an 8-bit pointer and a count of 0; R12: a 16-bit pointer. -/
theorem witness_WriteThenReadSucceeds :
    readGranted [.start, .sendA (slaW 0x50), .sendB 0x10, .start, .sendA (slaR 0x50)] 1
        (givenR [ok 0x08, ok 0x18, ok 0x28, ok 0x10, ok 0x40, okv 0x58 0x77, done]) = true ∧
      readGranted [.start, .sendA (slaW 0x50), .sendB 0x01, .sendB 0x23, .start, .sendA (slaR 0x50)] 1
        (givenR [ok 0x08, ok 0x18, ok 0x28, ok 0x28, ok 0x10, ok 0x40, okv 0x58 0x9C, done]) = true := by decide

/-- The hypotheses that the statements on failing transactions share, at a state with these answers. -/
def failsAt (i : Instr) (env : List Answer) (k : Nat) (c : Call) (w : WaitEnd) : Bool :=
  let s := givenR env
  (transactionCalls 32 i)[k]? = some c &&
    grantsAll s.params.codes s.timeoutMs (((transactionCalls 32 i).take k).map Call.prim) (s.upcoming k) &&
    (s.dropAnswers k).answer.primWait s.timeoutMs c.prim = w

/-- The first stage (R6), the repeated start (R13), a receive (R7) and the last stage (R9). -/
theorem witness_TransactionTimeoutGivesStage :
    failsAt (.read 0x68 2) [late] 0 ⟨1, .start⟩ .timeout = true ∧
      failsAt (.wrrdP8 0x50 0x10 3) [ok 0x08, ok 0x18, ok 0x28, late] 3 ⟨4, .start⟩ .timeout = true ∧
      failsAt (.read 0x68 3) [ok 0x08, ok 0x40, okv 0x50 0x12, late] 3 ⟨6, .recvB true⟩ .timeout = true ∧
      failsAt (.read 0x68 2) [ok 0x08, ok 0x40, okv 0x50 0x12, okv 0x58 0x34, lateStop] 4 ⟨7, .stop⟩ .timeout =
        true := by decide

/-- W13, and R8's acknowledge mismatch. -/
theorem witness_TransactionFaultGivesStatus :
    failsAt (.writeP8 0x50 0x10 [0xAA, 0xBB]) [ok 0x08, ok 0x18, ok 0x28, ok 0xF8] 3 ⟨3, .sendB 0xAA⟩ .done = true ∧
      judge Params.default.codes (.sendB 0xAA) 0xF8 = .other ∧ Prim.sendB 0xAA ≠ .stop ∧
      failsAt (.read 0x68 2) [ok 0x08, ok 0x40, okv 0x58 0x12] 2 ⟨6, .recvB true⟩ .done = true ∧
      judge Params.default.codes (.recvB true) 0x58 = .other ∧ Prim.recvB true ≠ .stop := by decide

/-- W6 and W6c (stage 2), W10 (stage 3, the last byte), R5 (stage 5). -/
theorem witness_TransactionNackGivesStage :
    failsAt (.writeP8 0x50 0x10 [0xAA, 0xBB]) [ok 0x08, ok 0x20, done] 1 ⟨2, .sendA 0xA0⟩ .done = true ∧
      judge Params.default.codes (.sendA 0xA0) 0x20 = .nack ∧
      ((given [ok 0x08, ok 0x20, done]).dropAnswers 2).answer.waitEnd .stopDone 100 = .done ∧
      ((given [ok 0x08, ok 0x20, lateStop]).dropAnswers 2).answer.waitEnd .stopDone 100 = .timeout ∧
      failsAt (.writeP8 0x50 0x10 [0xAA]) [ok 0x08, ok 0x18, ok 0x28, ok 0x30, done] 3 ⟨3, .sendB 0xAA⟩ .done = true ∧
      judge Params.default.codes (.sendB 0xAA) 0x30 = .nack ∧
      failsAt (.read 0x68 2) [ok 0x08, ok 0x48, done] 1 ⟨5, .sendA 0xD1⟩ .done = true ∧
      judge Params.default.codes (.sendA 0xD1) 0x48 = .nack := by decide

theorem witness_LostArbitrationAtStart :
    transactionCalls 32 (.read 0x68 2) ≠ [] ∧ (given [ok 0x38]).answer.waitEnd .complete 100 = .done ∧
      (given [ok 0x38]).answer.status = Params.default.codes.lostArb := by decide

theorem witness_BufferPlaysNoPart :
    isReadType (.writeP8 0x50 0x10 []) = false ∧ Instr.writeP8 0x50 0x10 [] ≠ .avail ∧
      Instr.writeP8 0x50 0x10 [] ≠ .recv ∧
      ∃ t, exec (.writeP8 0x50 0x10 []) (givenR [ok 0x08, ok 0x18, ok 0x28, done]) = .next t :=
  ⟨rfl, by decide, by decide, _, rfl⟩

theorem witness_AvailCommand : givenB.busy = false ∧ givenB.job = none := by decide

/-- The hypotheses of the statement on RECV: an unread byte, the counters in range, and this byte at the read index. -/
def unread (s : State) (v : Byte) : Bool :=
  s.availableNat ≠ 0 && s.availableNat ≤ s.totalNat && s.totalNat ≤ s.params.capacity &&
    Memory.read? s.buf (s.totalNat - s.availableNat) = some v

/-- Empty; the first and the last byte of three; the last byte of a full buffer. -/
theorem witness_RecvCommand :
    State.reset.availableNat = 0 ∧ unread givenB 0x00 = true ∧ unread { givenB with available := 1 } 0x7E = true ∧
      unread { given [] with total := 32, available := 1, buf := [(31, 0x55)] } 0x55 = true := by decide

/-- Each clause one step past the legal range. -/
theorem witness_RecvOfUnwrittenByteFaults :
    (let s := { given [] with total := 1, available := 1 }
     s.availableNat ≠ 0 ∧ s.availableNat ≤ s.totalNat ∧ s.totalNat - s.availableNat < s.params.capacity ∧
      Memory.read? s.buf (s.totalNat - s.availableNat) = none) ∧
      (let s := { given [] with total := 1, available := 2 }
       s.availableNat ≠ 0 ∧ s.totalNat < s.availableNat) ∧
      (let s := { given [] with total := 33, available := 1 }
       s.availableNat ≠ 0 ∧ s.params.capacity ≤ s.totalNat - s.availableNat) := by decide

/-- Sequence B2's start state meets the buffer invariant. -/
theorem witness_RecvDrainsInOrder : givenB.BufferInv := by
  refine ⟨by decide, ?_, ?_, by decide, by decide⟩
  · show ∀ i, i < 3 → (Memory.read? givenB.buf i).isSome
    decide
  · intro i h
    show i < 32
    by_contra hi
    have e : Memory.read? givenB.buf i = none := by
      show (if 0 = i then some (0x00 : Byte) else if 1 = i then some 0xFF else if 2 = i then some 0x7E else none) = none
      rw [if_neg (by omega), if_neg (by omega), if_neg (by omega)]
    simp [e] at h

theorem witness_OnlyNamedCommandsWrite :
    (∃ t, exec .recv givenB = .next t) ∧ isReadType .recv = false ∧ (∀ v, Instr.recv ≠ .setto v) ∧
      (∃ t, exec (.setto 0) givenB = .next t) ∧ Instr.setto 0 ≠ .recv :=
  ⟨⟨_, rfl⟩, rfl, by simp, ⟨_, rfl⟩, by decide⟩

theorem witness_OneResponsePerCommand :
    (∃ t, exec .start (given [ok 0x08]) = .next t) ∧ ∃ t, exec .start (given [notYet]) = .next t :=
  ⟨⟨_, rfl⟩, _, rfl⟩

/-- A busy block with a packet presented. -/
theorem witness_BusyBlockAcceptsNothing :
    let s := { waiting (.primitive .action .start) [ok 0x08] with offers := [[0x40]] }
    s.resetLine = false ∧ s.busy = true ∧ ∃ t, step s = .next t := ⟨rfl, rfl, _, rfl⟩

/-- A command that recovers in its one step; one that goes on after its NACK, and recovers in the step it ends in. -/
theorem witness_AtMostOneRecovery :
    (∃ t, exec (.senda 0xA0) (given [ok 0x20, lateStop]) = .next t) ∧
      (next? (exec (.senda 0xA0) (given [ok 0x20, { done with polls := [] }]))).map State.busy = some true ∧
      (let s := waiting (.primitive .nackStop (.sendA 0xA0)) [lateStop]
       s.busy = true ∧ s.resetLine = false ∧ ∃ t, step s = .next t) ∧
      (next? (step (waiting (.primitive .nackStop (.sendA 0xA0)) [{ done with polls := [] }]))).map State.busy =
        some true := ⟨⟨_, rfl⟩, by decide, ⟨rfl, rfl, _, rfl⟩, by decide⟩

/-- IDXW of the default parameters with this capacity. -/
def idxwOf (c : Nat) (h : 1 ≤ c := by decide) (h' : c ≤ 65535 := by decide) : Nat :=
  ({ Params.default with capacity := c, capacity_pos := h, capacity_le := h' } : Params).idxw

/-- A read that waits for its last byte, one byte received. -/
def midRead (env : List Answer) : State :=
  { waiting (.transaction .action ⟨6, .recvB false⟩ [⟨7, .stop⟩]) env with
    stage := 6, idx := 1, total := 1, available := 1, buf := [(0, 0x12)], busHeld := true }

theorem midRead_inv (env : List Answer) : (midRead env).Inv := by
  refine ⟨⟨rfl, ?_, ?_, BitVec.le_refl _, ?_⟩, rfl, ⟨rfl, rfl, rfl, ?_, ?_⟩⟩
  · intro i hi
    have e : i = 0 := by
      have : i < 1 := hi
      omega
    subst e
    rfl
  · intro i h
    show i < 32
    by_contra hi
    have e : Memory.read? (midRead env).buf i = none := by
      show (if 0 = i then some (0x12 : Byte) else none) = none
      rw [if_neg (by omega)]
    simp [e] at h
  · show 1 ≤ 32
    omega
  · intro h
    cases h
  · refine ⟨?_, ?_⟩
    · show 1 + 1 ≤ 32
      omega
    · show ∀ k : BitVec 3, callsInStage k [⟨6, .recvB false⟩, ⟨7, .stop⟩] + (if k = 6 then 1 else 0) ≤ 65537
      decide

/-- A read that ends before its first byte; one that goes on and takes its last. -/
theorem witness_ReadKeepsWhatItReceived :
    isReadType (.read 0x68 2) = true ∧ (∃ t, exec (.read 0x68 2) (givenR [ok 0x08, late]) = .next t) ∧
      (let s := midRead [okv 0x58 0x34, done]
       s.busy = true ∧ s.resetLine = false ∧ s.job = some (.transaction .action ⟨6, .recvB false⟩ [⟨7, .stop⟩]) ∧
        (next? (step s)).map (fun t => (t.totalNat, Memory.read? t.buf 1)) = some (2, some 0x34)) :=
  ⟨rfl, ⟨_, rfl⟩, rfl, rfl, rfl, by decide⟩

theorem witness_TransactionReleasesBus :
    (transactionCalls 32 (.writeP8 0x50 0x10 []) ≠ [] ∧
        (next? (exec (.writeP8 0x50 0x10 []) (given [ok 0x08, ok 0x20, done]))).map State.busy = some false) ∧
      (midRead [okv 0x58 0x34, done]).Inv ∧ (midRead [okv 0x58 0x34, done]).resetLine = false ∧
      (midRead [okv 0x58 0x34, done]).job = some (.transaction .action ⟨6, .recvB false⟩ [⟨7, .stop⟩]) ∧
      (next? (step (midRead [okv 0x58 0x34, done]))).map State.busy = some false :=
  ⟨by decide, midRead_inv _, rfl, rfl, by decide⟩

/-- W2's answers, every status at or above 8 (the stop's is not looked at), and the response 0. -/
theorem witness_ZeroMeansSuccess :
    let s := given [ok 0x08, ok 0x18, ok 0x28, { done with status := 8 }]
    transactionCalls 32 (.writeP8 0x50 0x10 []) ≠ [] ∧
      (∀ a ∈ s.upcoming (transactionCalls 32 (.writeP8 0x50 0x10 [])).length, 8 ≤ a.status.toNat) ∧
      (next? (exec (.writeP8 0x50 0x10 []) s)).map State.responses = some [resp 0 0] := by decide

/-- A write that waits in its second byte, and a block in mid-transaction. -/
theorem witness_PositionBounded :
    (Instr.writeP8 0x50 0x10 [0xAA]).wellFormed = true ∧ transactionCalls 32 (.writeP8 0x50 0x10 [0xAA]) ≠ [] ∧
      (next? (exec (.writeP8 0x50 0x10 [0xAA]) (given [ok 0x08, ok 0x18, ok 0x28, notYet]))).map
        (fun t => (t.idx, t.stage, t.job)) = some (1, 3, some (.transaction .action ⟨3, .sendB 0xAA⟩ [⟨7, .stop⟩])) ∧
      (let s := midRead [notYet]
       s.busy = true ∧ s.resetLine = false ∧ s.job = some (.transaction .action ⟨6, .recvB false⟩ [⟨7, .stop⟩]) ∧
        s.stage = 6 ∧ s.PositionBound [⟨6, .recvB false⟩, ⟨7, .stop⟩] ∧ (∃ t, step s = .next t) ∧ s.Inv) :=
  ⟨by decide, by decide, by decide, rfl, rfl, rfl, rfl, (midRead_inv _).2.2.2.2.2.2.2, ⟨_, rfl⟩, midRead_inv _⟩

/-- An idle block with a packet, and a block in mid-transaction. -/
theorem witness_ObservationVariablesNotRead :
    (State.reset.present [0x01]).resetLine = false ∧ (∃ t, step (State.reset.present [0x01]) = .next t) ∧
      (midRead [notYet]).resetLine = false ∧ ∃ t, step (midRead [notYet]) = .next t :=
  ⟨rfl, ⟨_, rfl⟩, rfl, _, rfl⟩

/-- An idle block with a packet: all three differ; a running command: `st` and `rx`; in the stop of a NACK path:
`rx` alone. -/
theorem witness_UnspecifiedRegistersNeverMatter :
    ((State.reset.present [0x05]).SameButUnread { State.reset.present [0x05] with t0 := 1, st := 2, rx := 3 } ∧
        ∃ t, step (State.reset.present [0x05]) = .next t) ∧
      ((midRead [notYet]).SameButUnread { midRead [notYet] with st := 2, rx := 3 } ∧
        ∃ t, step (midRead [notYet]) = .next t) ∧
      (let s := waiting (.primitive .nackStop (.sendB 0)) [done]
       s.SameButUnread { s with rx := 3 } ∧ ∃ t, step s = .next t) ∧
      ∃ t, exec .recvbA (given [okv 0x50 0x7E]) = .next t := by
  refine ⟨⟨⟨1, 2, 3, rfl, ?_⟩, _, rfl⟩, ⟨⟨0, 2, 3, rfl, ?_⟩, _, rfl⟩, ⟨⟨0, 0, 3, rfl, ?_⟩, _, rfl⟩, _, rfl⟩
  · intro j h
    cases h
  · intro j h
    cases h
    exact ⟨rfl, by intro h; cases h⟩
  · intro j h
    exact ⟨rfl, fun _ => rfl⟩

/-- The invariant holds of a block in mid-transaction, and its step answers a next state. -/
theorem witness_InvariantKept : (midRead [notYet]).Inv ∧ ∃ t, step (midRead [notYet]) = .next t :=
  ⟨midRead_inv _, _, rfl⟩

theorem witness_NoFaultUnderInvariant : (midRead []).Inv := midRead_inv _

/-- Room for a byte and a byte unread; the largest capacities of either width hold their counts. -/
theorem witness_CountersFitIndexWidth :
    (midRead [done]).BufferInv ∧ (midRead [done]).totalNat < (midRead [done]).params.capacity ∧
      (midRead [done]).availableNat ≠ 0 ∧ Params.default.idxw = 8 ∧ idxwOf 255 = 8 ∧ idxwOf 256 = 16 :=
  ⟨(midRead_inv _).1, by decide, by decide, by decide, by decide, by decide⟩

theorem witness_ResetAbandonsCommand : ({ midRead [] with resetLine := true } : State).resetLine = true := rfl

theorem witness_IdleBlockWaits :
    State.reset.resetLine = false ∧ State.reset.busy = false ∧ State.reset.offers = [] := by decide

end Sys2Proof.Tests
end

section
/-! PROOFS. The counters of the buffer fit the index width (spec/00_scope.md R6, R64). -/

namespace Sys2Proof

/-- R6: IDXW is 8 exactly when `C` fits in 8 bits, and `C` fits in 16 bits in any case. -/
theorem Params.capacity_lt_two_pow_idxw (p : Params) : p.capacity < 2 ^ p.idxw := by
  have hle := p.capacity_le
  unfold Params.idxw
  split <;> omega

end Sys2Proof

namespace Sys2Proof.Machine

variable {s : State}

theorem State.BufferInv.availableNat_le_totalNat (h : s.BufferInv) : s.availableNat ≤ s.totalNat := by
  obtain ⟨-, -, -, hat, -⟩ := h
  exact hat

theorem State.appendRx_totalNat_of_lt_capacity (h : s.totalNat < s.params.capacity) :
    s.appendRx.totalNat = s.totalNat + 1 := by
  have hC := s.params.capacity_lt_two_pow_idxw
  rw [State.appendRx_totalNat, Nat.mod_eq_of_lt (by omega)]

theorem State.appendRx_availableNat_of_lt_capacity (h : s.availableNat < s.params.capacity) :
    s.appendRx.availableNat = s.availableNat + 1 := by
  have hC := s.params.capacity_lt_two_pow_idxw
  rw [State.appendRx_availableNat, Nat.mod_eq_of_lt (by omega)]

end Sys2Proof.Machine

namespace Sys2Proof.Proofs

open Sys2Proof.Machine

/-- Settles O48: the sum of an append stays at most `C`, below the modulus; a consume and the read index need only
`available ≤ total`. -/
theorem countersFitIndexWidth : Obligations.CountersFitIndexWidth := by
  refine ⟨Params.capacity_lt_two_pow_idxw, fun s hs => ?_⟩
  have hat := hs.availableNat_le_totalNat
  refine ⟨fun hroom => ?append, fun hunread => ?consume⟩
  case append =>
    exact ⟨State.appendRx_totalNat_of_lt_capacity hroom,
      State.appendRx_availableNat_of_lt_capacity (hat.trans_lt hroom)⟩
  case consume =>
    rw [State.consume_availableNat s hunread]
    omega

end Sys2Proof.Proofs
end

section
/-! PROOFS. How a command runs, said once: which commands run primitives, which run stages, and the induction over the
stages of a transaction (spec/42_write.md R142, R143). -/

namespace Sys2Proof.Machine

/-- The primitive a primitive command runs (R100); none for the other commands. -/
def primOf : Instr → Option Prim
  | .start => some .start
  | .senda b => some (.sendA b)
  | .sendb b => some (.sendB b)
  | .recvbN => some (.recvB false)
  | .recvbA => some (.recvB true)
  | .stop => some .stop
  | _ => none

theorem exec_of_primOf {i : Instr} {p : Prim} (h : primOf i = some p) (s : State) :
    exec i s = .next (runPrimitiveCommand p s) := by
  cases i <;> cases h <;> rfl

/-- A transaction command accepted: a read-type one clears the buffer's counters first (R150). -/
def State.acceptFor (s : State) (i : Instr) : State := if isReadType i then s.accept.clearBuffer else s.accept

theorem State.acceptFor_of_read {i : Instr} (h : isReadType i = true) (s : State) : s.acceptFor i = s.accept.clearBuffer :=
  if_pos h

theorem State.acceptFor_of_not_read {i : Instr} (h : isReadType i = false) (s : State) : s.acceptFor i = s.accept := by
  simp [State.acceptFor, h]

/-- A command with stages runs them from the accepted state; whether it has any does not depend on the capacity. -/
theorem exec_of_transaction {i : Instr} {c : Nat} (h : transactionCalls c i ≠ []) (s : State) :
    exec i s = .next (runTransaction (transactionCalls s.params.capacity i) (s.acceptFor i)) := by
  cases i with
  | writeP8 a p d => rfl
  | writeP16 a p d => rfl
  | read a n => rfl
  | wrrdP8 a p n => rfl
  | wrrdP16 a p n => rfl
  | _ => exact absurd rfl h

/-- The commands of spec/44_buffer_config.md, which use no bus. -/
def isLocal : Instr → Bool
  | .avail => true
  | .recv => true
  | .setto _ => true
  | .getto => true
  | _ => false

/-- Every list of stages ends with a stop, so none is empty. -/
theorem stages_ne_nil (lead : List Call) : lead ++ [⟨7, .stop⟩] ≠ [] := by simp

/-- The three kinds of commands. -/
theorem command_kinds (i : Instr) (c : Nat) :
    (∃ p, primOf i = some p) ∨ transactionCalls c i ≠ [] ∨ isLocal i = true := by
  cases i with
  | avail => exact .inr (.inr rfl)
  | recv => exact .inr (.inr rfl)
  | setto t => exact .inr (.inr rfl)
  | getto => exact .inr (.inr rfl)
  | writeP8 a p d => exact .inr (.inl (stages_ne_nil _))
  | writeP16 a p d => exact .inr (.inl (stages_ne_nil _))
  | read a n => exact .inr (.inl (stages_ne_nil _))
  | wrrdP8 a p n => exact .inr (.inl (stages_ne_nil _))
  | wrrdP16 a p n => exact .inr (.inl (stages_ne_nil _))
  | _ => exact .inl ⟨_, rfl⟩

theorem exec_recv_of_empty {s : State} (h : s.availableNat = 0) : exec .recv s = .next (s.accept.respond 0 0) :=
  if_pos h

theorem exec_recv_of_byte {s : State} {k : Nat} {b : Byte} (h : s.availableNat ≠ 0) (hk : s.readIndex = some k)
    (hb : Memory.read? s.buf k = some b) :
    exec .recv s = .next (s.accept.consume.respond 0 (b.setWidth 16)) := by
  change execRecv s = _
  simp only [execRecv, if_neg h, hk, hb]

/-- RECV that answers a next state: from an empty buffer, or having taken one unread byte (R171). -/
theorem exec_recv_next {s t : State} (h : exec .recv s = .next t) :
    s.availableNat = 0 ∧ t = s.accept.respond 0 0 ∨
      s.availableNat ≠ 0 ∧ ∃ k b, s.readIndex = some k ∧ Memory.read? s.buf k = some b ∧
        t = s.accept.consume.respond 0 (b.setWidth 16) := by
  change execRecv s = _ at h
  unfold execRecv at h
  split at h
  next hz => exact .inl ⟨hz, (Host.Outcome.next.inj h).symm⟩
  next hne =>
    split at h
    next => cases h
    next k hk =>
      split at h
      next => cases h
      next b hb => exact .inr ⟨hne, k, b, hk, hb, (Host.Outcome.next.inj h).symm⟩

/-- A local command hands back a response from the accepted state, with the timeout written or a byte taken. -/
theorem exec_local_next {i : Instr} (hi : isLocal i = true) {s t : State} (h : exec i s = .next t) :
    ∃ d, t = s.accept.respond 0 d ∨ (∃ v, i = .setto v ∧ t = (s.accept.setTimeout v).respond 0 d) ∨
      i = .recv ∧ s.availableNat ≠ 0 ∧ t = s.accept.consume.respond 0 d := by
  cases i with
  | avail => exact ⟨_, .inl (Host.Outcome.next.inj h).symm⟩
  | setto v => exact ⟨_, .inr (.inl ⟨v, rfl, (Host.Outcome.next.inj h).symm⟩)⟩
  | getto => exact ⟨_, .inl (Host.Outcome.next.inj h).symm⟩
  | recv =>
    rcases exec_recv_next h with ⟨-, ht⟩ | ⟨hne, k, b, -, -, ht⟩
    · exact ⟨0, .inl ht⟩
    · exact ⟨_, .inr (.inr ⟨rfl, hne, ht⟩)⟩
  | _ => cases hi

/-- A primitive command responds, or goes on in the next step (R100, R125). -/
theorem settlePrimitive_cases (p : Prim) (r : Progress × State) :
    (∃ x d, settlePrimitive p r = r.2.respond x d) ∨
      ∃ ph, r.1 = .pending ph ∧ settlePrimitive p r = r.2.suspend (.primitive ph p) := by
  obtain ⟨o | ph, t⟩ := r
  · cases o <;> exact .inl ⟨_, _, rfl⟩
  · exact .inr ⟨ph, rfl, rfl⟩

/-- What carries a claim through the stages of a transaction: `I` holds before the stages still to run, `J` of the
outcome of the stage in progress and the ones after it, `Q` of the state the step ends in. -/
structure StageRule (I : List Call → State → Prop) (J : Call → List Call → Progress × State → Prop)
    (Q : State → Prop) : Prop where
  run : ∀ {c cs s}, I (c :: cs) s → J c cs (runPrim c.prim (s.enterStage c.stage))
  ok : ∀ {c cs t}, J c cs (.ended .ok, t) → I cs (c.advance t)
  fails : ∀ {c cs o t} (x : Byte), J c cs (.ended o, t) → Q (t.finish x)
  goesOn : ∀ {c cs ph t}, J c cs (.pending ph, t) → Q (t.suspend (.transaction ph c cs))
  finish : ∀ {s}, I [] s → Q (s.finish 0)

section
variable {I : List Call → State → Prop} {J : Call → List Call → Progress × State → Prop} {Q : State → Prop}

/-- A stage's outcome, given what the stages after it come to. -/
theorem StageRule.settleWith (h : StageRule I J Q) {c : Call} {cs : List Call} {r : Progress × State}
    {rest : State → State} (hrest : ∀ t, I cs t → Q (rest t)) (hr : J c cs r) : Q (settleCall rest c cs r) := by
  obtain ⟨o | ph, t⟩ := r
  · cases o with
    | ok => exact hrest _ (h.ok hr)
    | timeout => exact h.fails _ hr
    | nack x => exact h.fails _ hr
    | fault x => exact h.fails _ hr
  · exact h.goesOn hr

theorem StageRule.runCalls (h : StageRule I J Q) {cs : List Call} {s : State} (hs : I cs s) : Q (runCalls cs s) := by
  induction cs generalizing s with
  | nil => exact h.finish hs
  | cons c cs ih => exact h.settleWith (fun _ => ih) (h.run hs)

theorem StageRule.settle (h : StageRule I J Q) {c : Call} {cs : List Call} {r : Progress × State} (hr : J c cs r) :
    Q (settleCall (Machine.runCalls cs) c cs r) :=
  h.settleWith (fun _ => h.runCalls) hr

end

/-- A busy block's step out of reset goes on with the running command, whose receives fit the buffer (R70). -/
theorem step_of_busy {s t : State} {j : Job} (hr : s.resetLine = false) (hb : s.busy = true) (hj : s.job = some j)
    (h : step s = .next t) : j.fits s = true ∧ t = j.resume s := by
  have e : step s = if j.fits s then .next (j.resume s) else .fault .bufferOverrun := by
    simp [step, hr, hb, continueCommand, hj]
  rw [e] at h
  split at h
  · exact ⟨‹_›, (Host.Outcome.next.inj h).symm⟩
  · cases h

end Sys2Proof.Machine
end

section
/-! PROOFS. The stages of the transactions, and the bound of `idx` (spec/10_state.md R26, spec/60_exceptions.md R192). -/

namespace Sys2Proof.Machine

@[simp] theorem map_stage_sendCalls (bytes : List Byte) :
    (sendCalls bytes).map Call.stage = List.replicate bytes.length 3 := by
  simp [sendCalls, Function.comp_def]

theorem stage_of_mem_receiveCalls {c : Call} {n : Nat} (hs : c ∈ receiveCalls n) : c.stage = 6 ∧ c.wellStaged = true := by
  induction n with
  | zero => cases hs
  | succ n ih =>
    cases n with
    | zero =>
      obtain rfl := List.mem_singleton.1 hs
      exact ⟨rfl, rfl⟩
    | succ n =>
      rcases List.mem_cons.1 hs with rfl | hs
      · exact ⟨rfl, rfl⟩
      · exact ih hs

@[simp] theorem map_stage_receiveCalls (n : Nat) : (receiveCalls n).map Call.stage = List.replicate n 6 := by
  rw [List.eq_replicate_iff]
  refine ⟨by simp, fun k hk => ?_⟩
  obtain ⟨c, hc, rfl⟩ := List.mem_map.1 hk
  exact (stage_of_mem_receiveCalls hc).1

@[simp] theorem map_stage_writeCalls (a : BusAddress) (bytes : List Byte) :
    (writeCalls a bytes).map Call.stage = [1, 2] ++ List.replicate bytes.length 3 ++ [7] := by
  simp [writeCalls]

@[simp] theorem map_stage_readCalls (a : BusAddress) (n : Nat) :
    (readCalls a n).map Call.stage = [1, 5] ++ List.replicate n 6 ++ [7] := by
  simp [readCalls]

@[simp] theorem map_stage_writeReadCalls (a : BusAddress) (ptr : List Byte) (n : Nat) :
    (writeReadCalls a ptr n).map Call.stage =
      [1, 2] ++ List.replicate ptr.length 3 ++ [4, 5] ++ List.replicate n 6 ++ [7] := by
  simp [writeReadCalls]

theorem sendCalls_wellStaged (bytes : List Byte) : (sendCalls bytes).all Call.wellStaged = true := by
  simp [sendCalls, Call.wellStaged]

theorem receiveCalls_wellStaged (n : Nat) : (receiveCalls n).all Call.wellStaged = true :=
  List.all_eq_true.2 fun _ hc => (stage_of_mem_receiveCalls hc).2

theorem writeCalls_wellStaged (a : BusAddress) (bytes : List Byte) :
    (writeCalls a bytes).all Call.wellStaged = true := by
  simp [writeCalls, sendCalls_wellStaged, Call.wellStaged, -List.all_eq_true]

theorem readCalls_wellStaged (a : BusAddress) (n : Nat) : (readCalls a n).all Call.wellStaged = true := by
  simp [readCalls, receiveCalls_wellStaged, Call.wellStaged, -List.all_eq_true]

theorem writeReadCalls_wellStaged (a : BusAddress) (ptr : List Byte) (n : Nat) :
    (writeReadCalls a ptr n).all Call.wellStaged = true := by
  simp [writeReadCalls, sendCalls_wellStaged, receiveCalls_wellStaged, Call.wellStaged, -List.all_eq_true]

theorem callsInStage_eq_count (k : BitVec 3) (calls : List Call) :
    callsInStage k calls = (calls.map Call.stage).count k := by
  rw [callsInStage, List.count, List.countP_map]
  rfl

theorem callsInStage_cons (k : BitVec 3) (c : Call) (cs : List Call) :
    callsInStage k (c :: cs) = callsInStage k cs + if c.stage = k then 1 else 0 := by
  simp [callsInStage, List.countP_cons]

/-- A repeated stage stands in one block, every other stage occurs at most once. -/
theorem count_blocks_le (k : BitVec 3) (m n : Nat) :
    ([1, 2] ++ List.replicate m 3 ++ [4, 5] ++ List.replicate n 6 ++ [7] : List (BitVec 3)).count k ≤
      max 1 (max m n) := by
  have hk : k = 0 ∨ k = 1 ∨ k = 2 ∨ k = 3 ∨ k = 4 ∨ k = 5 ∨ k = 6 ∨ k = 7 := by decide +revert
  rcases hk with rfl | rfl | rfl | rfl | rfl | rfl | rfl | rfl <;>
    simp [List.count_append, List.count_replicate]

/-- What the transaction commands' stages are, with the bounds their operands have. -/
theorem transactionCalls_shape {i : Instr} {c : Nat} (h : transactionCalls c i ≠ []) :
    (isReadType i = false ∧ ∃ a bytes, transactionCalls c i = writeCalls a bytes ∧
        (i.wellFormed = true → bytes.length ≤ 65537)) ∨
      isReadType i = true ∧ ∃ a n, transactionCalls c i = readCalls a (normalise c n) ∨
        ∃ ptr, transactionCalls c i = writeReadCalls a ptr (normalise c n) ∧ ptr.length ≤ 2 := by
  cases i with
  | writeP8 a p d =>
    refine .inl ⟨rfl, a, _, rfl, fun hw => ?_⟩
    have : d.length ≤ 65535 := of_decide_eq_true hw
    simp only [pointerBytes8, List.length_append, List.length_singleton]
    omega
  | writeP16 a p d =>
    refine .inl ⟨rfl, a, _, rfl, fun hw => ?_⟩
    have : d.length ≤ 65535 := of_decide_eq_true hw
    simp only [pointerBytes16, List.length_append, List.length_cons, List.length_nil]
    omega
  | read a n => exact .inr ⟨rfl, a, n, .inl rfl⟩
  | wrrdP8 a p n => exact .inr ⟨rfl, a, n, .inr ⟨_, rfl, by simp [pointerBytes8]⟩⟩
  | wrrdP16 a p n => exact .inr ⟨rfl, a, n, .inr ⟨_, rfl, by simp [pointerBytes16]⟩⟩
  | _ => exact absurd rfl h

theorem normalise_le {c : Nat} (hc : 1 ≤ c) (n : Word16) : normalise c n ≤ c := by
  unfold normalise
  split_ifs <;> omega

/-- R26: no transaction command has more than 65537 calls in a stage. -/
theorem callsInStage_transactionCalls_le {i : Instr} {p : Params} (hw : i.wellFormed = true)
    (h : transactionCalls p.capacity i ≠ []) (k : BitVec 3) :
    callsInStage k (transactionCalls p.capacity i) ≤ 65537 := by
  have hcap := p.capacity_le
  rw [callsInStage_eq_count]
  rcases transactionCalls_shape h with ⟨-, a, bytes, e, hb⟩ | ⟨-, a, n, hread⟩
  case inl =>
    have hsub : ([1, 2] ++ List.replicate bytes.length 3 ++ [7] : List (BitVec 3)).Sublist
        ([1, 2] ++ List.replicate bytes.length 3 ++ [4, 5] ++ List.replicate 0 6 ++ [7]) :=
      ((List.sublist_append_left _ _).trans (List.sublist_append_left _ _)).append (.refl _)
    have hle := (hsub.count_le k).trans (count_blocks_le k bytes.length 0)
    have := hb hw
    rw [e, map_stage_writeCalls]
    omega
  case inr =>
    have hn := normalise_le p.capacity_pos n
    rcases hread with e | ⟨ptr, e, hptr⟩
    · have hlead : ([1, 5] : List (BitVec 3)).Sublist ([1, 2] ++ List.replicate 0 3 ++ [4, 5]) := by decide
      have hsub := (hlead.append (.refl (List.replicate (normalise p.capacity n) 6))).append (.refl [7])
      have hle := (hsub.count_le k).trans (count_blocks_le k 0 _)
      rw [e, map_stage_readCalls]
      omega
    · have hle := count_blocks_le k ptr.length (normalise p.capacity n)
      rw [e, map_stage_writeReadCalls]
      omega

/-! ### The position along the stages -/

section
variable {s t : State} {c : Call} {cs : List Call}

theorem State.PositionBound.idx_le (h : s.PositionBound cs) : s.idx.toNat ≤ 65537 := by
  have := h s.stage
  rw [if_pos rfl] at this
  omega

theorem State.PositionBound.congr (h : s.PositionBound cs) (hs : t.stage = s.stage) (hi : t.idx = s.idx) :
    t.PositionBound cs := by
  unfold State.PositionBound
  rw [hs, hi]
  exact h

/-- Another stage starts with no byte done (R142). -/
theorem State.PositionBound.enterStage (h : s.PositionBound cs) (k : BitVec 3) : (s.enterStage k).PositionBound cs := by
  intro j
  have hj := h j
  change callsInStage j cs + (if j = k then (if s.stage = k then s.idx else 0).toNat else 0) ≤ 65537
  by_cases hs : s.stage = k
  · rwa [if_pos hs, ← hs]
  · rw [if_neg hs, show (0 : BitVec 17).toNat = 0 from rfl, ite_self]
    omega

@[simp] theorem Call.advance_stage (c : Call) (s : State) : (c.advance s).stage = s.stage := by
  unfold Call.advance
  cases c.prim <;> rfl

theorem Call.advance_idx_le (c : Call) (s : State) : (c.advance s).idx.toNat ≤ s.idx.toNat + 1 := by
  have hadd : (s.idx + 1).toNat ≤ s.idx.toNat + 1 := by
    rw [BitVec.toNat_add]
    exact Nat.mod_le _ _
  unfold Call.advance
  cases c.prim with
  | sendB b => exact hadd
  | recvB ack => exact hadd
  | start => exact Nat.le_succ _
  | sendA b => exact Nat.le_succ _
  | stop => exact Nat.le_succ _

/-- A byte done is a call less to run. -/
theorem State.PositionBound.advance (h : s.PositionBound (c :: cs)) (hs : s.stage = c.stage) :
    (c.advance s).PositionBound cs := by
  intro k
  have hk := h k
  have hidx := c.advance_idx_le s
  rw [callsInStage_cons, hs] at hk
  rw [Call.advance_stage, hs]
  by_cases e : k = c.stage
  · rw [if_pos e.symm, if_pos e] at hk
    rw [if_pos e]
    omega
  · rw [if_neg (Ne.symm e), if_neg e] at hk
    rw [if_neg e]
    omega

end

/-- The position a step leaves: `idx` bounded, and in a transaction still going on the stage in progress and room in
`idx` for the calls to come. -/
def State.PositionKept (t : State) : Prop :=
  t.idx.toNat ≤ 65537 ∧ ∀ ph c rest, t.job = some (.transaction ph c rest) →
    t.stage = c.stage ∧ t.PositionBound (c :: rest)

theorem position_rule : StageRule (fun cs s => s.PositionBound cs)
    (fun c cs r => r.2.stage = c.stage ∧ r.2.PositionBound (c :: cs)) State.PositionKept where
  run {c _ s} h :=
    have f := runPrim_frame c.prim (s.enterStage c.stage)
    ⟨f.stage, (h.enterStage c.stage).congr f.stage f.idx⟩
  ok h := h.2.advance h.1
  fails _ _ := ⟨Nat.zero_le _, fun _ _ _ hj => nomatch hj⟩
  goesOn h := by
    refine ⟨h.2.idx_le, fun _ _ _ hj => ?_⟩
    cases hj
    exact h
  finish _ := ⟨Nat.zero_le _, fun _ _ _ hj => nomatch hj⟩

/-- A transaction begins with no byte done. -/
theorem leaveStages_positionBound {i : Instr} {p : Params} (hw : i.wellFormed = true)
    (hi : transactionCalls p.capacity i ≠ []) (s : State) :
    s.leaveStages.PositionBound (transactionCalls p.capacity i) := by
  intro k
  have := callsInStage_transactionCalls_le hw hi k
  simpa [State.leaveStages]

theorem exec_transaction_positionKept {i : Instr} {s t : State} (hw : i.wellFormed = true)
    (hi : transactionCalls s.params.capacity i ≠ []) (h : exec i s = .next t) : t.PositionKept := by
  rw [exec_of_transaction hi] at h
  obtain rfl := Host.Outcome.next.inj h
  exact position_rule.runCalls (leaveStages_positionBound hw hi _)

theorem step_transaction_positionKept {s t : State} {ph : Phase} {c : Call} {rest : List Call}
    (hb : s.busy = true) (hr : s.resetLine = false) (hj : s.job = some (.transaction ph c rest))
    (hs : s.stage = c.stage) (hp : s.PositionBound (c :: rest)) (h : step s = .next t) : t.PositionKept := by
  obtain ⟨-, rfl⟩ := step_of_busy hr hb hj h
  have f := resumePrim_frame ph c.prim s
  exact position_rule.settle (r := resumePrim ph c.prim s) ⟨f.stage.trans hs, hp.congr f.stage f.idx⟩

theorem State.Inv.idx_le {s : State} (h : s.Inv) : s.idx.toNat ≤ 65537 := by
  obtain ⟨-, -, hp⟩ := h
  unfold State.PositionInv at hp
  split at hp
  · simp [hp.2]
  · simp [hp.2.1]
  · obtain ⟨-, -, -, -, -, hbound⟩ := hp
    exact hbound.idx_le

end Sys2Proof.Machine

namespace Sys2Proof.Proofs

open Sys2Proof.Machine

/-- Settles O8: the stage numbers of the three lists, block by block. -/
theorem stageSequences : Obligations.StageSequences := by
  intro a bytes n
  refine ⟨map_stage_writeCalls a bytes, map_stage_readCalls a n, map_stage_writeReadCalls a bytes n, ?_⟩
  rw [List.all_append, List.all_append, writeCalls_wellStaged, readCalls_wellStaged, writeReadCalls_wellStaged]
  rfl

/-- Settles O42: the bound of the position is carried through the stages, where a byte done is a call less to run. -/
theorem positionBounded : Obligations.PositionBounded :=
  ⟨fun _ _ _ hw hi h => exec_transaction_positionKept hw hi h,
    fun _ _ _ _ _ hb hr hj hs hp h => step_transaction_positionKept hb hr hj hs hp h,
    fun _ h => h.idx_le⟩

end Sys2Proof.Proofs
end

section
/-! PROOFS. What the commands leave unchanged (spec/10_state.md R21, R23, R33). -/

namespace Sys2Proof.Machine

/-! ### Primitive commands -/

/-- What the primitive command of `p` leaves as it was, whether it responded or goes on. -/
structure PrimitiveFrame (p : Prim) (s t : State) : Prop where
  buf : t.buf = s.buf
  total : t.totalNat = s.totalNat
  available : t.availableNat = s.availableNat
  timeoutMs : t.timeoutMs = s.timeoutMs
  stage : t.stage = s.stage
  idx : t.idx = s.idx
  params : t.params = s.params
  resetLine : t.resetLine = s.resetLine
  offers : t.offers = s.offers
  st : p = .stop → t.st = s.st
  rx : p.isReceive = false → t.rx = s.rx

theorem runPrimitiveCommand_frame (p : Prim) (s : State) : PrimitiveFrame p s (runPrimitiveCommand p s) := by
  have f := runPrim_frame p s.accept
  have k := runPrim_spec p s.accept
  unfold runPrimitiveCommand
  rcases settlePrimitive_cases p (runPrim p s.accept) with ⟨x, d, e⟩ | ⟨ph, -, e⟩ <;> rw [e] <;>
    exact ⟨f.buf, f.total, f.available, f.timeoutMs, f.stage, f.idx, f.params, f.resetLine, f.offers, k.stop_st,
      fun h => k.rx (.inl h)⟩

/-- The receives are the two commands R104 and R105 name. -/
theorem isReceive_of_primOf {i : Instr} {p : Prim} (h : primOf i = some p) (ha : i ≠ .recvbA) (hn : i ≠ .recvbN) :
    p.isReceive = false := by
  cases i with
  | recvbA => exact absurd rfl ha
  | recvbN => exact absurd rfl hn
  | _ => cases h <;> rfl

/-! ### Transactions -/

/-- What every command but SETTO leaves as it was. -/
structure CommandFrame (s t : State) : Prop where
  params : t.params = s.params
  timeoutMs : t.timeoutMs = s.timeoutMs
  resetLine : t.resetLine = s.resetLine
  offers : t.offers = s.offers

theorem CommandFrame.prim {s t u : State} (h : CommandFrame s t) (f : PrimFrame t u) : CommandFrame s u :=
  ⟨f.params.trans h.params, f.timeoutMs.trans h.timeoutMs, f.resetLine.trans h.resetLine, f.offers.trans h.offers⟩

theorem CommandFrame.advance {s t : State} (h : CommandFrame s t) (c : Call) : CommandFrame s (c.advance t) := by
  obtain ⟨hp, ht, hr, ho⟩ := h
  unfold Call.advance
  cases c.prim <;> exact ⟨hp, ht, hr, ho⟩

theorem commandFrame_rule (s : State) :
    StageRule (fun _ t => CommandFrame s t) (fun _ _ r => CommandFrame s r.2) (CommandFrame s) where
  run {c _ t} h := CommandFrame.prim (t := t.enterStage c.stage) ⟨h.1, h.2, h.3, h.4⟩ (runPrim_frame _ _)
  ok h := h.advance _
  fails _ h := ⟨h.1, h.2, h.3, h.4⟩
  goesOn h := ⟨h.1, h.2, h.3, h.4⟩
  finish h := ⟨h.1, h.2, h.3, h.4⟩

/-- The registers a receive writes, as they were. -/
structure BufferKept (s t : State) : Prop where
  buf : t.buf = s.buf
  total : t.totalNat = s.totalNat
  available : t.availableNat = s.availableNat
  rx : t.rx = s.rx

theorem BufferKept.prim {s t : State} {p : Prim} (h : BufferKept s t) (hp : p.isReceive = false) :
    BufferKept s (runPrim p t).2 := by
  have f := runPrim_frame p t
  exact ⟨f.buf.trans h.buf, f.total.trans h.total, f.available.trans h.available,
    ((runPrim_spec p t).rx (.inl hp)).trans h.rx⟩

theorem BufferKept.advance {s t : State} {c : Call} (h : BufferKept s t) (hc : c.prim.isReceive = false) :
    BufferKept s (c.advance t) := by
  obtain ⟨hb, ht, ha, hx⟩ := h
  unfold Call.advance
  cases e : c.prim with
  | recvB ack => simp [e, Prim.isReceive] at hc
  | _ => exact ⟨hb, ht, ha, hx⟩

/-- A call that receives counts one. -/
theorem receivesIn_cons_eq_zero {c : Call} {cs : List Call} (h : receivesIn (c :: cs) = 0) :
    c.prim.isReceive = false ∧ receivesIn cs = 0 := by
  have e : c.isReceive = c.prim.isReceive := by
    cases hp : c.prim <;> simp [Call.isReceive, Prim.isReceive, hp]
  rw [receivesIn_cons, e] at h
  cases hc : c.prim.isReceive
  · exact ⟨rfl, by omega⟩
  · simp [hc] at h

theorem bufferKept_rule (s : State) :
    StageRule (fun cs t => receivesIn cs = 0 ∧ BufferKept s t)
      (fun c cs r => receivesIn (c :: cs) = 0 ∧ BufferKept s r.2) (BufferKept s) where
  run {c _ t} h := ⟨h.1, BufferKept.prim (t := t.enterStage c.stage) ⟨h.2.1, h.2.2, h.2.3, h.2.4⟩
    (receivesIn_cons_eq_zero h.1).1⟩
  ok h :=
    have ⟨hc, hcs⟩ := receivesIn_cons_eq_zero h.1
    ⟨hcs, h.2.advance hc⟩
  fails _ h := ⟨h.2.1, h.2.2, h.2.3, h.2.4⟩
  goesOn h := ⟨h.2.1, h.2.2, h.2.3, h.2.4⟩
  finish h := ⟨h.2.1, h.2.2, h.2.3, h.2.4⟩

@[simp] theorem receivesIn_writeCalls (a : BusAddress) (bytes : List Byte) : receivesIn (writeCalls a bytes) = 0 := by
  simp only [writeCalls, receivesIn_append, receivesIn_sendCalls]
  rfl

theorem receivesIn_of_write {i : Instr} {c : Nat} (h : transactionCalls c i ≠ []) (hw : isReadType i = false) :
    receivesIn (transactionCalls c i) = 0 := by
  rcases transactionCalls_shape h with ⟨-, a, bytes, e, -⟩ | ⟨hr, -⟩
  · rw [e, receivesIn_writeCalls]
  · rw [hw] at hr
    cases hr

theorem exec_transaction_frame {i : Instr} {s t : State} (hi : transactionCalls s.params.capacity i ≠ [])
    (h : exec i s = .next t) : CommandFrame s t := by
  rw [exec_of_transaction hi] at h
  obtain rfl := Host.Outcome.next.inj h
  refine (commandFrame_rule s).runCalls ?_
  unfold State.acceptFor
  split <;> exact ⟨rfl, rfl, rfl, rfl⟩

theorem exec_write_bufferKept {i : Instr} {s t : State} (hi : transactionCalls s.params.capacity i ≠ [])
    (hw : isReadType i = false) (h : exec i s = .next t) : BufferKept s t := by
  rw [exec_of_transaction hi, State.acceptFor_of_not_read hw] at h
  obtain rfl := Host.Outcome.next.inj h
  exact (bufferKept_rule s).runCalls ⟨receivesIn_of_write hi hw, rfl, rfl, rfl, rfl⟩

end Sys2Proof.Machine

namespace Sys2Proof.Proofs

open Sys2Proof.Machine

/-- Settles O20: each of the six commands is its primitive, and R33's frame of a primitive holds whatever its outcome. -/
theorem primitiveCommandsFrame : Obligations.PrimitiveCommandsFrame := by
  intro i s t hi h
  obtain ⟨p, hp⟩ : ∃ p, primOf i = some p := by
    rcases hi with rfl | ⟨b, rfl⟩ | ⟨b, rfl⟩ | rfl | rfl | rfl <;> exact ⟨_, rfl⟩
  rw [exec_of_primOf hp] at h
  obtain rfl := Host.Outcome.next.inj h
  have f := runPrimitiveCommand_frame p s
  refine ⟨f.buf, f.total, f.available, f.timeoutMs, f.stage, f.idx, f.params, f.resetLine, f.offers, ?_,
    fun ha hn => f.rx (isReceive_of_primOf hp ha hn)⟩
  rintro rfl
  exact f.st (Option.some.inj hp).symm

/-- Settles O36, by the three kinds of commands. -/
theorem onlyNamedCommandsWrite : Obligations.OnlyNamedCommandsWrite := by
  intro i s t h
  rcases command_kinds i s.params.capacity with ⟨p, hp⟩ | hi | hl
  case inl =>
    rw [exec_of_primOf hp] at h
    obtain rfl := Host.Outcome.next.inj h
    have f := runPrimitiveCommand_frame p s
    exact ⟨fun _ => f.timeoutMs, fun _ => ⟨f.buf, f.total⟩, fun _ _ => f.available,
      fun _ ha hn => f.rx (isReceive_of_primOf hp ha hn), fun _ => ⟨f.stage, f.idx⟩, f.params, f.offers, f.resetLine⟩
  case inr.inl =>
    have f := exec_transaction_frame hi h
    have k := fun hw => exec_write_bufferKept hi hw h
    exact ⟨fun _ => f.timeoutMs, fun hw => ⟨(k hw).buf, (k hw).total⟩, fun hw _ => (k hw).available,
      fun hw _ _ => (k hw).rx, fun he => absurd he hi, f.params, f.offers, f.resetLine⟩
  case inr.inr =>
    obtain ⟨d, rfl | ⟨v, rfl, rfl⟩ | ⟨rfl, -, rfl⟩⟩ := exec_local_next hl h
    · exact ⟨fun _ => rfl, fun _ => ⟨rfl, rfl⟩, fun _ _ => rfl, fun _ _ _ => rfl, fun _ => ⟨rfl, rfl⟩, rfl, rfl, rfl⟩
    · exact ⟨fun hv => absurd rfl (hv v), fun _ => ⟨rfl, rfl⟩, fun _ _ => rfl, fun _ _ _ => rfl,
        fun _ => ⟨rfl, rfl⟩, rfl, rfl, rfl⟩
    · exact ⟨fun _ => rfl, fun _ => ⟨rfl, rfl⟩, fun _ hr => absurd rfl hr, fun _ _ _ => rfl, fun _ => ⟨rfl, rfl⟩,
        rfl, rfl, rfl⟩

end Sys2Proof.Proofs
end

section
/-! PROOFS. The invariant of the block (spec/10_state.md R22, R26, R27, R64): at reset, and kept by every step. -/

namespace Sys2Proof

/-- Every command a row can make is well formed, where a payload fits its length field. -/
def Row.MakesWellFormed : Row → Prop
  | .z i => i.wellFormed = true
  | .b k => ∀ x, (k x).wellFormed = true
  | .t k => ∀ x, (k x).wellFormed = true
  | .r k => ∀ a n, (k a n).wellFormed = true
  | .x8 k => ∀ a p n, (k a p n).wellFormed = true
  | .x16 k => ∀ a p n, (k a p n).wellFormed = true
  | .w8 k => ∀ a p d, payloadFits d = true → (k a p d).wellFormed = true
  | .w16 k => ∀ a p d, payloadFits d = true → (k a p d).wellFormed = true

theorem rowOf_makesWellFormed {op : Nat} {row : Row} (h : rowOf op = some row) : row.MakesWellFormed := by
  unfold rowOf at h
  split at h <;> cases h <;> simp [Row.MakesWellFormed, Instr.wellFormed]

/-- A payload as long as a 16-bit field says fits the field (R83). -/
theorem payloadFits_of_length {d : List Byte} {m : Word16} (h : d.length = m.toNat) : payloadFits d = true :=
  decide_eq_true (by omega)

theorem Row.operands_wellFormed {row : Row} (hrow : row.MakesWellFormed) {bs : List Byte} {i : Instr}
    (h : row.operands bs = .ok i) : i.wellFormed = true := by
  unfold Row.operands at h
  split at h
  · cases h; exact hrow
  · cases h; exact hrow _
  · cases h; exact hrow _
  · obtain ⟨a, -, rfl⟩ := withAddress_ok h; exact hrow _ _
  · obtain ⟨a, -, rfl⟩ := withAddress_ok h; exact hrow _ _ _
  · obtain ⟨a, -, rfl⟩ := withAddress_ok h; exact hrow _ _ _
  · split at h
    · obtain ⟨a, -, rfl⟩ := withAddress_ok h; exact hrow _ _ _ (payloadFits_of_length ‹_›)
    · cases h
  · split at h
    · obtain ⟨a, -, rfl⟩ := withAddress_ok h; exact hrow _ _ _ (payloadFits_of_length ‹_›)
    · cases h
  · cases h

/-- R73, R83: a packet that decodes makes a well-formed command. -/
theorem decode_wellFormed {pkt : List Byte} {i : Instr} (h : decode pkt = .ok i) : i.wellFormed = true := by
  cases pkt with
  | nil => cases h
  | cons op rest =>
    simp only [decode] at h
    split at h
    · cases h
    · exact Row.operands_wellFormed (rowOf_makesWellFormed ‹_›) h

end Sys2Proof

namespace Sys2Proof.Machine

variable {s t : State} {c : Call} {cs : List Call}

/-! ### The buffer -/

theorem State.BufferInv.congr (h : s.BufferInv) (hb : t.buf = s.buf) (ht : t.totalNat = s.totalNat)
    (ha : t.availableNat = s.availableNat) (hp : t.params = s.params) : t.BufferInv := by
  unfold State.BufferInv
  rw [hb, ht, ha, hp]
  exact h

theorem State.BufferInv.totalNat_le_capacity (h : s.BufferInv) : s.totalNat ≤ s.params.capacity := by
  obtain ⟨-, -, -, -, htc⟩ := h
  exact htc

theorem State.BufferInv.clearBuffer (h : s.BufferInv) : s.clearBuffer.BufferInv := by
  obtain ⟨hwf, -, hin, -, -⟩ := h
  refine ⟨hwf, ?_, hin, ?_, ?_⟩
  · intro i hi
    rw [State.clearBuffer_totalNat] at hi
    omega
  · rw [State.clearBuffer_availableNat]
    omega
  · rw [State.clearBuffer_totalNat]
    omega

/-- A byte taken leaves the rest of the buffer (R171). -/
theorem State.BufferInv.consume (h : s.BufferInv) (hne : s.availableNat ≠ 0) : s.consume.BufferInv := by
  obtain ⟨hwf, hcov, hin, hat, htc⟩ := h
  refine ⟨hwf, hcov, hin, ?_, htc⟩
  rw [State.consume_availableNat s hne, State.consume_totalNat]
  omega

/-- A byte stored in a free place (R152, R64 (a)). -/
theorem State.BufferInv.appendRx (h : s.BufferInv) (hroom : s.totalNat < s.params.capacity) : s.appendRx.BufferInv := by
  obtain ⟨hwf, hcov, hin, hat, htc⟩ := h
  have ht := State.appendRx_totalNat_of_lt_capacity hroom
  have ha := State.appendRx_availableNat_of_lt_capacity (hat.trans_lt hroom)
  refine ⟨Memory.write_wf hwf, ?_, ?_, by omega, by rw [ht]; exact hroom⟩
  · intro i hi
    rw [State.appendRx_buf]
    by_cases e : i = s.totalNat
    · rw [e, Memory.read_write_same]
      rfl
    · rw [Memory.read_write_other _ e]
      exact hcov i (by omega)
  · intro i hi
    by_cases e : i = s.totalNat
    · rw [e]
      exact hroom
    · rw [State.appendRx_buf, Memory.read_write_other _ e] at hi
      exact hin i hi

theorem resetWith_bufferInv (p : Params) : (State.resetWith p).BufferInv := by
  have ht : (State.resetWith p).totalNat = 0 := Nat.zero_mod _
  have ha : (State.resetWith p).availableNat = 0 := Nat.zero_mod _
  refine ⟨rfl, ?_, ?_, by omega, by omega⟩
  · intro i hi
    omega
  · intro i hi
    cases hi

/-! ### Along the stages of a transaction -/

/-- The last of these stages, if there are any, is a stop (R142, R145). -/
def EndsWithStop (cs : List Call) : Prop := ∀ c, cs.getLast? = some c → c.prim = .stop

theorem EndsWithStop.tail (h : EndsWithStop (c :: cs)) : EndsWithStop cs := by
  intro d hd
  refine h d ?_
  rw [List.getLast?_cons, hd]
  rfl

/-- The invariant before the stages `cs` of the running transaction. -/
structure StagesInv (cs : List Call) (s : State) : Prop where
  buffer : s.BufferInv
  busy : s.busy = true
  staged : cs.all Call.wellStaged = true
  lastStop : EndsWithStop cs
  room : s.totalNat + receivesIn cs ≤ s.params.capacity
  position : s.PositionBound cs

theorem StagesInv.prim (h : StagesInv cs s) (f : PrimFrame s t) : StagesInv cs t where
  buffer := h.buffer.congr f.buf f.total f.available f.params
  busy := f.busy.trans h.busy
  staged := h.staged
  lastStop := h.lastStop
  room := by rw [f.total, f.params]; exact h.room
  position := h.position.congr f.stage f.idx

theorem StagesInv.enterStage (h : StagesInv cs s) (k : BitVec 3) : StagesInv cs (s.enterStage k) :=
  ⟨h.buffer, h.busy, h.staged, h.lastStop, h.room, h.position.enterStage k⟩

/-- A stage done: a receive takes one place of the room left (R64 (a)). -/
theorem StagesInv.advance (h : StagesInv (c :: cs) s) (hs : s.stage = c.stage) : StagesInv cs (c.advance s) := by
  obtain ⟨hbuf, hbusy, hst, hlast, hroom, hpos⟩ := h
  have hcs : cs.all Call.wellStaged = true := by
    rw [List.all_cons, Bool.and_eq_true] at hst
    exact hst.2
  have hpos' := hpos.advance hs
  rw [receivesIn_cons] at hroom
  cases e : c.prim with
  | recvB ack =>
    have hc : c.isReceive = true := by simp [Call.isReceive, e]
    rw [if_pos hc] at hroom
    have ha : c.advance s = s.appendRx.advanceIdx := by simp [Call.advance, e]
    rw [ha] at hpos' ⊢
    have ht := State.appendRx_totalNat_of_lt_capacity (s := s) (by omega)
    refine ⟨hbuf.appendRx (by omega), hbusy, hcs, hlast.tail, ?_, hpos'⟩
    change s.appendRx.totalNat + receivesIn cs ≤ s.params.capacity
    omega
  | sendB b =>
    have ha : c.advance s = s.advanceIdx := by simp [Call.advance, e]
    rw [ha] at hpos' ⊢
    exact ⟨hbuf, hbusy, hcs, hlast.tail, by rw [State.advanceIdx_totalNat, State.advanceIdx_params]; omega, hpos'⟩
  | _ =>
    have ha : c.advance s = s := by simp [Call.advance, e]
    rw [ha] at hpos' ⊢
    exact ⟨hbuf, hbusy, hcs, hlast.tail, by omega, hpos'⟩

/-- An idle block out of a transaction meets the invariant when its buffer does. -/
theorem inv_of_idle (hb : t.BufferInv) (hbusy : t.busy = false) (hj : t.job = none) (hs : t.stage = 0)
    (hi : t.idx = 0) : t.Inv := by
  refine ⟨hb, ?_, ?_⟩
  · rw [State.BusyInv, hbusy, hj]
    rfl
  · rw [State.PositionInv, hj]
    exact ⟨hs, hi⟩

theorem inv_rule : StageRule StagesInv
    (fun c cs r => r.2.stage = c.stage ∧ StagesInv (c :: cs) r.2 ∧
      (r.1 = .pending .nackStop → judge r.2.params.codes c.prim r.2.st = .nack)) State.Inv where
  run {c _ s} h :=
    have f := runPrim_frame c.prim (s.enterStage c.stage)
    ⟨f.stage, (h.enterStage _).prim f, fun e => by rw [f.params]; exact (runPrim_spec _ _).nackStop e⟩
  ok h := h.2.1.advance h.1
  fails _ h := inv_of_idle h.2.1.buffer rfl rfl rfl rfl
  goesOn {c cs ph t} h := by
    obtain ⟨hs, ⟨hbuf, hbusy, hst, hlast, hroom, hpos⟩, hn⟩ := h
    refine ⟨hbuf, hbusy, hs, hst, ?_, fun e => hn (congrArg Progress.pending e), hroom, hpos⟩
    obtain ⟨d, hd⟩ := Option.isSome_iff_exists.1 (List.getLast?_isSome.2 (List.cons_ne_nil c cs))
    rw [hd, Option.map_some, hlast d hd]
  finish h := inv_of_idle h.buffer rfl rfl rfl rfl

/-! ### The steps -/

theorem transactionCalls_wellStaged {i : Instr} {n : Nat} (h : transactionCalls n i ≠ []) :
    (transactionCalls n i).all Call.wellStaged = true := by
  rcases transactionCalls_shape h with ⟨-, a, bytes, e, -⟩ | ⟨-, a, n, e | ⟨ptr, e, -⟩⟩ <;> rw [e]
  · exact writeCalls_wellStaged a bytes
  · exact readCalls_wellStaged a _
  · exact writeReadCalls_wellStaged a ptr _

theorem endsWithStop_append_stop (lead : List Call) : EndsWithStop (lead ++ [⟨7, .stop⟩]) := by
  intro d hd
  rw [List.getLast?_concat] at hd
  cases hd
  rfl

theorem transactionCalls_endsWithStop {i : Instr} {n : Nat} (h : transactionCalls n i ≠ []) :
    EndsWithStop (transactionCalls n i) := by
  rcases transactionCalls_shape h with ⟨-, a, bytes, e, -⟩ | ⟨-, a, n, e | ⟨ptr, e, -⟩⟩ <;> rw [e] <;>
    exact endsWithStop_append_stop _

@[simp] theorem receivesIn_readCalls (a : BusAddress) (n : Nat) : receivesIn (readCalls a n) = n := by
  simp only [readCalls, receivesIn_append, receivesIn_receiveCalls]
  exact Nat.zero_add n

@[simp] theorem receivesIn_writeReadCalls (a : BusAddress) (ptr : List Byte) (n : Nat) :
    receivesIn (writeReadCalls a ptr n) = n := by
  simp only [writeReadCalls, receivesIn_append, receivesIn_sendCalls, receivesIn_receiveCalls]
  exact Nat.zero_add n

/-- R151: the receives of a transaction fit the empty buffer. -/
theorem receivesIn_transactionCalls_le {i : Instr} {p : Params} (h : transactionCalls p.capacity i ≠ []) :
    receivesIn (transactionCalls p.capacity i) ≤ p.capacity := by
  rcases transactionCalls_shape h with ⟨-, a, bytes, e, -⟩ | ⟨-, a, n, e | ⟨ptr, e, -⟩⟩ <;> rw [e]
  · rw [receivesIn_writeCalls]
    exact Nat.zero_le _
  · rw [receivesIn_readCalls]
    exact normalise_le p.capacity_pos n
  · rw [receivesIn_writeReadCalls]
    exact normalise_le p.capacity_pos n

theorem exec_transaction_inv {i : Instr} (hb : s.BufferInv) (hw : i.wellFormed = true)
    (hi : transactionCalls s.params.capacity i ≠ []) (h : exec i s = .next t) : t.Inv := by
  rw [exec_of_transaction hi] at h
  obtain rfl := Host.Outcome.next.inj h
  refine inv_rule.runCalls ?_
  have hpos := leaveStages_positionBound hw hi
  cases hr : isReadType i
  · rw [State.acceptFor_of_not_read hr]
    refine ⟨hb, rfl, transactionCalls_wellStaged hi, transactionCalls_endsWithStop hi, ?_, hpos _⟩
    rw [receivesIn_of_write hi hr]
    exact hb.totalNat_le_capacity
  · rw [State.acceptFor_of_read hr]
    refine ⟨hb.clearBuffer, rfl, transactionCalls_wellStaged hi, transactionCalls_endsWithStop hi, ?_, hpos _⟩
    change s.clearBuffer.totalNat + _ ≤ s.params.capacity
    rw [State.clearBuffer_totalNat, Nat.zero_add]
    exact receivesIn_transactionCalls_le hi

/-- A primitive command, begun or gone on with, from position (0, 0). -/
theorem settlePrimitive_inv {p : Prim} {r : Progress × State} (hb : s.BufferInv) (hbusy : s.busy = true)
    (hs : s.stage = 0) (hi : s.idx = 0) (f : PrimFrame s r.2) (k : PrimSpec p s r) : (settlePrimitive p r).Inv := by
  have hbuf := hb.congr f.buf f.total f.available f.params
  rcases settlePrimitive_cases p r with ⟨x, d, e⟩ | ⟨ph, hph, e⟩ <;> rw [e]
  · exact inv_of_idle hbuf rfl rfl (f.stage.trans hs) (f.idx.trans hi)
  · refine ⟨hbuf, f.busy.trans hbusy, f.stage.trans hs, f.idx.trans hi, fun hn => ?_⟩
    change judge r.2.params.codes p r.2.st = .nack
    rw [f.params]
    exact k.nackStop (by rw [hph, hn])

theorem exec_inv {i : Instr} (hb : s.BufferInv) (hs : s.stage = 0) (hx : s.idx = 0) (hw : i.wellFormed = true)
    (h : exec i s = .next t) : t.Inv := by
  rcases command_kinds i s.params.capacity with ⟨p, hp⟩ | hi | hl
  · rw [exec_of_primOf hp] at h
    obtain rfl := Host.Outcome.next.inj h
    exact settlePrimitive_inv (s := s.accept) hb rfl hs hx (runPrim_frame p _) (runPrim_spec p _)
  · exact exec_transaction_inv hb hw hi h
  · obtain ⟨d, rfl | ⟨v, -, rfl⟩ | ⟨-, hne, rfl⟩⟩ := exec_local_next hl h
    · exact inv_of_idle hb rfl rfl hs hx
    · exact inv_of_idle hb rfl rfl hs hx
    · exact inv_of_idle (State.BufferInv.consume (s := s.accept) hb hne) rfl rfl hs hx

theorem resume_inv {j : Job} (h : s.Inv) (hj : s.job = some j) : (j.resume s).Inv := by
  obtain ⟨hb, hbusyInv, hp⟩ := h
  have hbusy : s.busy = true := by rw [hbusyInv, hj]; rfl
  rw [State.PositionInv, hj] at hp
  cases j with
  | primitive ph p =>
    obtain ⟨hs, hi, hn⟩ := hp
    exact settlePrimitive_inv hb hbusy hs hi (resumePrim_frame ph p s) (resumePrim_spec ph p s hn)
  | transaction ph c rest =>
    obtain ⟨hs, hst, hlast, hn, hroom, hpos⟩ := hp
    have hstop : EndsWithStop (c :: rest) := fun d hd => by
      rw [hd] at hlast
      exact Option.some.inj hlast
    have f := resumePrim_frame ph c.prim s
    refine inv_rule.settle (r := resumePrim ph c.prim s) ⟨f.stage.trans hs,
      StagesInv.prim ⟨hb, hbusy, hst, hstop, hroom, hpos⟩ f, fun e => ?_⟩
    rw [f.params]
    exact (resumePrim_spec ph c.prim s hn).nackStop e

theorem servePort_inv (hb : s.BufferInv) (hbusy : s.busy = false) (hj : s.job = none) (hs : s.stage = 0)
    (hi : s.idx = 0) (h : servePort s = .next t) : t.Inv := by
  unfold servePort at h
  split at h
  next =>
    obtain rfl := Host.Outcome.next.inj h
    exact inv_of_idle hb hbusy hj hs hi
  next pkt rest _ =>
    split at h
    next i hdec => exact exec_inv (s := s.setOffers rest) hb hs hi (decode_wellFormed hdec) h
    next =>
      obtain rfl := Host.Outcome.next.inj h
      exact inv_of_idle hb hbusy hj hs hi

theorem resetWith_inv (p : Params) : (State.resetWith p).Inv := inv_of_idle (resetWith_bufferInv p) rfl rfl rfl rfl

theorem step_inv (h : s.Inv) (hstep : step s = .next t) : t.Inv := by
  cases hr : s.resetLine
  case true =>
    rw [step, if_pos hr] at hstep
    obtain rfl := Host.Outcome.next.inj hstep
    exact inv_of_idle (resetWith_bufferInv s.params) rfl rfl rfl rfl
  case false =>
    have ⟨hb, hbusyInv, hp⟩ := h
    cases hj : s.job with
    | some j =>
      have hbusy : s.busy = true := by rw [hbusyInv, hj]; rfl
      obtain ⟨-, rfl⟩ := step_of_busy hr hbusy hj hstep
      exact resume_inv h hj
    | none =>
      have hbusy : s.busy = false := by rw [hbusyInv, hj]; rfl
      rw [State.PositionInv, hj] at hp
      rw [step, hr, hbusy] at hstep
      exact servePort_inv hb hbusy hj hp.1 hp.2 hstep

end Sys2Proof.Machine

namespace Sys2Proof.Proofs

open Sys2Proof.Machine

/-- Settles O45: reset gives the invariant, a running command keeps it stage by stage, and a command is accepted at
position (0, 0). -/
theorem invariantKept : Obligations.InvariantKept := fun _ _ h hstep => step_inv h hstep

/-- Settles O46. -/
theorem invariantAtReset : Obligations.InvariantAtReset := ⟨resetWith_inv _, resetWith_inv⟩

/-- Settles O49: the counters are the IDXW-bit zero, the other registers are as R30 lists them. -/
theorem resetValues : Obligations.ResetValues := fun _ =>
  ⟨rfl, Nat.zero_mod _, Nat.zero_mod _, rfl, rfl, rfl, rfl, rfl, rfl⟩

end Sys2Proof.Proofs
end

section
/-! PROOFS. Registers that no step reads: the observation variables at any time, `t0`, `st` and `rx` before they are
written (spec/10_state.md R24, R25, R29, R30). Two states that differ in these five alone take the same steps. -/

namespace Sys2Proof.Machine

/-- The registers that differ between the two states compared. -/
structure Hidden where
  t0 : Millis
  st : Byte
  rx : Byte
  hbTrace : List HbOp
  busHeld : Bool

def State.hidden (s : State) : Hidden := ⟨s.t0, s.st, s.rx, s.hbTrace, s.busHeld⟩

def State.withHidden (s : State) (v : Hidden) : State :=
  { s with t0 := v.t0, st := v.st, rx := v.rx, hbTrace := v.hbTrace, busHeld := v.busHeld }

/-- The two states agree on every register but the five. -/
def State.SameButHidden (s u : State) : Prop := u = s.withHidden u.hidden

section
variable {s u : State}

theorem State.SameButHidden.params (h : s.SameButHidden u) : u.params = s.params := by rw [h]; rfl
theorem State.SameButHidden.timeoutMs (h : s.SameButHidden u) : u.timeoutMs = s.timeoutMs := by rw [h]; rfl
theorem State.SameButHidden.stage (h : s.SameButHidden u) : u.stage = s.stage := by rw [h]; rfl
theorem State.SameButHidden.busy (h : s.SameButHidden u) : u.busy = s.busy := by rw [h]; rfl
theorem State.SameButHidden.job (h : s.SameButHidden u) : u.job = s.job := by rw [h]; rfl
theorem State.SameButHidden.resetLine (h : s.SameButHidden u) : u.resetLine = s.resetLine := by rw [h]; rfl
theorem State.SameButHidden.offers (h : s.SameButHidden u) : u.offers = s.offers := by rw [h]; rfl
theorem State.SameButHidden.answer (h : s.SameButHidden u) : u.answer = s.answer := by rw [h]; rfl
theorem State.SameButHidden.fits (h : s.SameButHidden u) (j : Job) : j.fits u = j.fits s := by rw [h]; rfl

end

/-- From the pair `s`, `u` to the pair `t`, `t'`: still the same but for the five registers, the same operations added
to both traces, and each of the other four written alike or left alone. -/
structure Tracks (s u t t' : State) : Prop where
  same : t.SameButHidden t'
  ops : ∃ ops, t.hbTrace = s.hbTrace ++ ops ∧ t'.hbTrace = u.hbTrace ++ ops
  busHeld : t'.busHeld = t.busHeld ∨ t'.busHeld = u.busHeld ∧ t.busHeld = s.busHeld
  t0 : u.t0 = s.t0 → t'.t0 = t.t0
  st : u.st = s.st → t'.st = t.st
  rx : u.rx = s.rx → t'.rx = t.rx

section
variable {s u t t' w w' : State}

theorem Tracks.refl (h : s.SameButHidden u) : Tracks s u s u :=
  ⟨h, ⟨[], by simp, by simp⟩, .inr ⟨rfl, rfl⟩, id, id, id⟩

theorem Tracks.trans (h : Tracks s u t t') (k : Tracks t t' w w') : Tracks s u w w' := by
  obtain ⟨x, hx, hx'⟩ := h.ops
  obtain ⟨y, hy, hy'⟩ := k.ops
  refine ⟨k.same, ⟨x ++ y, by simp [hy, hx], by simp [hy', hx']⟩, ?_, k.t0 ∘ h.t0, k.st ∘ h.st, k.rx ∘ h.rx⟩
  rcases k.busHeld with e | ⟨e', e⟩
  · exact .inl e
  · rw [e', e]
    exact h.busHeld

/-- An update of other registers, which reads none of the five. -/
theorem Tracks.update (h : Tracks s u t t') (f : State → State)
    (hf : ∀ x v, f (State.withHidden x v) = (f x).withHidden v) (hh : ∀ x, (f x).hidden = x.hidden) :
    Tracks s u (f t) (f t') := by
  have same : (f t).SameButHidden (f t') := by
    rw [State.SameButHidden, hh, ← hf, ← h.same]
  have e := hh t
  have e' := hh t'
  simp only [State.hidden, Hidden.mk.injEq] at e e'
  obtain ⟨z, c, x, tr, b⟩ := e
  obtain ⟨z', c', x', tr', b'⟩ := e'
  exact ⟨same, by rw [tr, tr']; exact h.ops, by rw [b, b']; exact h.busHeld, by rw [z, z']; exact h.t0,
    by rw [c, c']; exact h.st, by rw [x, x']; exact h.rx⟩

theorem Tracks.emit (h : Tracks s u t t') (l : List HbOp) : Tracks s u (t.emit l) (t'.emit l) := by
  obtain ⟨same, ⟨ops, e, e'⟩, hh, h0, hs, hx⟩ := h
  exact ⟨by rw [same]; rfl, ⟨ops ++ l, by simp [e], by simp [e']⟩, hh, h0, hs, hx⟩

theorem Tracks.issue (h : Tracks s u t t') (now : Millis) (op : HbOp) :
    Tracks s u (t.issue now op) (t'.issue now op) := by
  obtain ⟨same, ⟨ops, e, e'⟩, hh, h0, hs, hx⟩ := h
  exact ⟨by rw [same]; rfl, ⟨ops ++ [op], by simp [e], by simp [e']⟩, hh, fun _ => rfl, hs, hx⟩

theorem Tracks.setHeld (h : Tracks s u t t') (b : Bool) : Tracks s u (t.setHeld b) (t'.setHeld b) := by
  obtain ⟨same, ops, -, h0, hs, hx⟩ := h
  exact ⟨by rw [same]; rfl, ops, .inl rfl, h0, hs, hx⟩

theorem Tracks.recover (h : Tracks s u t t') : Tracks s u t.recover t'.recover :=
  (h.emit [.forceReset]).setHeld false

theorem Tracks.latchStatus (h : Tracks s u t t') (x : Byte) : Tracks s u (t.latchStatus x) (t'.latchStatus x) := by
  obtain ⟨same, ⟨ops, e, e'⟩, hh, h0, -, hx⟩ := h
  exact ⟨by rw [same]; rfl, ⟨ops ++ [.status], by simp [e], by simp [e']⟩, hh, h0, fun _ => rfl, hx⟩

theorem Tracks.latchRx (h : Tracks s u t t') (x : Byte) : Tracks s u (t.latchRx x) (t'.latchRx x) := by
  obtain ⟨same, ⟨ops, e, e'⟩, hh, h0, hs, -⟩ := h
  exact ⟨by rw [same]; rfl, ⟨ops ++ [.rxData], by simp [e], by simp [e']⟩, hh, h0, hs, fun _ => rfl⟩

theorem Tracks.dropAnswer (h : Tracks s u t t') : Tracks s u t.dropAnswer t'.dropAnswer :=
  h.update State.dropAnswer (fun _ _ => rfl) (fun _ => rfl)

/-- The byte stored is the same where `rx` is (R152). -/
theorem Tracks.appendRx (h : Tracks s u t t') (hrx : t'.rx = t.rx) : Tracks s u t.appendRx t'.appendRx := by
  obtain ⟨same, ops, hh, h0, hs, hx⟩ := h
  refine ⟨?_, ops, hh, h0, hs, hx⟩
  have e : t'.appendRx = { t' with
      buf := Memory.write t'.buf t'.totalNat t.rx, total := t'.total + 1, available := t'.available + 1 } := by
    rw [State.appendRx, hrx]
  rw [e, same]
  rfl

theorem Tracks.advance (h : Tracks s u t t') (c : Call) (hrx : c.prim.isReceive = true → t'.rx = t.rx) :
    Tracks s u (c.advance t) (c.advance t') := by
  unfold Call.advance
  cases e : c.prim with
  | sendB b => exact h.update State.advanceIdx (fun _ _ => rfl) (fun _ => rfl)
  | recvB ack =>
    exact (h.appendRx (hrx (by rw [e]; rfl))).update State.advanceIdx (fun _ _ => rfl) (fun _ => rfl)
  | _ => exact h

end

/-! ### A primitive -/

/-- The primitive `p`, run in `t` and in `t'`, comes to the same outcome, and what a later step reads of the five
registers is then the same: `t0`, `st` in the stop of a NACK path, `rx` after a receive. -/
structure RunsAlike (p : Prim) (t t' : State) (r r' : Progress × State) : Prop where
  outcome : r'.1 = r.1
  tracks : Tracks t t' r.2 r'.2
  t0 : r'.2.t0 = r.2.t0
  st : r.1 = .pending .nackStop → r'.2.st = r.2.st
  rx : p.isReceive = true → r.1 = .ended .ok → r'.2.rx = r.2.rx

section
variable {p : Prim} {t t' w w' : State} {r r' : Progress × State}

theorem RunsAlike.of (h : RunsAlike p w w' r r') (k : Tracks t t' w w') : RunsAlike p t t' r r' :=
  ⟨h.outcome, k.trans h.tracks, h.t0, h.st, h.rx⟩

theorem guardedWait_alike (h : t.SameButHidden t') (h0 : t'.t0 = t.t0) (on : WaitOn) (polls : List Poll) :
    (t'.guardedWait on polls).1 = (t.guardedWait on polls).1 ∧
      Tracks t t' (t.guardedWait on polls).2 (t'.guardedWait on polls).2 := by
  rw [guardedWait_eq, guardedWait_eq, h0, h.timeoutMs]
  refine ⟨rfl, ?_⟩
  dsimp only
  split
  · exact ((Tracks.refl h).emit _).recover
  · exact (Tracks.refl h).emit _

theorem awaitStop_alike (h : t.SameButHidden t') (h0 : t'.t0 = t.t0) (a : Answer) :
    RunsAlike .stop t t' (awaitStop a t) (awaitStop a t') := by
  obtain ⟨e, k⟩ := guardedWait_alike h h0 .stopDone a.polls
  unfold awaitStop
  generalize t.guardedWait .stopDone a.polls = x at e k
  generalize t'.guardedWait .stopDone a.polls = x' at e k
  obtain ⟨d, y⟩ := x
  obtain ⟨d', y'⟩ := x'
  obtain rfl : d' = d := e
  cases d' with
  | done => exact ⟨rfl, k.setHeld false, k.t0 h0, nofun, nofun⟩
  | timeout => exact ⟨rfl, k, k.t0 h0, nofun, nofun⟩
  | undecided => exact ⟨rfl, k, k.t0 h0, nofun, nofun⟩

theorem primStop_alike (h : t.SameButHidden t') : RunsAlike .stop t t' (primStop t) (primStop t') := by
  unfold primStop
  rw [h.answer]
  have k := ((Tracks.refl h).dropAnswer).issue t.answer.now0 .issueStop
  exact (awaitStop_alike k.same rfl _).of k

/-- The NACK path answers the status in `st`, and goes on with it (R109). -/
theorem dropStopOutcome_alike (h : RunsAlike .stop t t' r r') (hst : t'.st = t.st) (x : Byte) :
    RunsAlike p t t' (dropStopOutcome x r) (dropStopOutcome x r') := by
  obtain ⟨o, y⟩ := r
  obtain ⟨o', y'⟩ := r'
  obtain rfl : o' = o := h.outcome
  cases o' with
  | ended o => exact ⟨rfl, h.tracks, h.t0, nofun, nofun⟩
  | pending ph => exact ⟨rfl, h.tracks, h.t0, fun _ => h.tracks.st hst, nofun⟩

theorem decideStatus_alike (h : t.SameButHidden t') (h0 : t'.t0 = t.t0) (hst : t'.st = t.st) (a : Answer) :
    RunsAlike p t t' (decideStatus p a t) (decideStatus p a t') := by
  have k := Tracks.refl h
  unfold decideStatus
  rw [h.params, hst]
  cases judge t.params.codes p t.st with
  | success =>
    cases p with
    | start => exact ⟨rfl, k.setHeld true, h0, nofun, nofun⟩
    | recvB ack => exact ⟨rfl, k.latchRx a.rxData, h0, nofun, fun _ _ => rfl⟩
    | _ => exact ⟨rfl, k, h0, nofun, nofun⟩
  | nack => exact dropStopOutcome_alike (primStop_alike h) hst t.st
  | other => exact ⟨rfl, k.recover, h0, nofun, nofun⟩

theorem awaitComplete_alike (h : t.SameButHidden t') (h0 : t'.t0 = t.t0) (a : Answer) :
    RunsAlike p t t' (awaitComplete p a t) (awaitComplete p a t') := by
  obtain ⟨e, k⟩ := guardedWait_alike h h0 .complete a.polls
  unfold awaitComplete
  generalize t.guardedWait .complete a.polls = x at e k
  generalize t'.guardedWait .complete a.polls = x' at e k
  obtain ⟨d, y⟩ := x
  obtain ⟨d', y'⟩ := x'
  obtain rfl : d' = d := e
  cases d' with
  | done =>
    have k' := k.latchStatus a.status
    exact (decideStatus_alike k'.same (k'.t0 h0) rfl a).of k'
  | timeout => exact ⟨rfl, k, k.t0 h0, nofun, nofun⟩
  | undecided => exact ⟨rfl, k, k.t0 h0, nofun, nofun⟩

theorem awaitPrim_alike (h : t.SameButHidden t') (h0 : t'.t0 = t.t0) (a : Answer) :
    RunsAlike p t t' (awaitPrim p a t) (awaitPrim p a t') := by
  cases p with
  | stop => exact awaitStop_alike h h0 a
  | _ => exact awaitComplete_alike h h0 a

/-- A primitive writes `t0` before it waits, `st` before it decides, `rx` before it hands a byte on. -/
theorem runPrim_alike (h : t.SameButHidden t') : RunsAlike p t t' (runPrim p t) (runPrim p t') := by
  unfold runPrim
  rw [h.answer]
  have k := ((Tracks.refl h).dropAnswer).issue t.answer.now0 p.busOp
  exact (awaitPrim_alike k.same rfl _).of k

theorem resumePrim_alike (h : t.SameButHidden t') (h0 : t'.t0 = t.t0) {ph : Phase}
    (hst : ph = .nackStop → t'.st = t.st) : RunsAlike p t t' (resumePrim ph p t) (resumePrim ph p t') := by
  have k := (Tracks.refl h).dropAnswer
  cases ph with
  | action =>
    unfold resumePrim
    rw [h.answer]
    exact (awaitPrim_alike k.same h0 _).of k
  | nackStop =>
    simp only [resumePrim]
    rw [h.answer, hst rfl]
    exact dropStopOutcome_alike ((awaitStop_alike k.same h0 _).of k) (hst rfl) t.st

end

/-! ### A command and a step -/

/-- What a running command will still read is the same in both states (R24, R25). -/
def State.ReadAlike (t t' : State) : Prop :=
  ∀ j, t.job = some j → t'.t0 = t.t0 ∧ (j.phase = .nackStop → t'.st = t.st)

theorem readAlike_of_no_job {t t' : State} (h : t.job = none) : t.ReadAlike t' := fun j hj => by
  rw [h] at hj
  cases hj

/-- The pair `t`, `t'` comes from `s`, `u`, and the step after it does too. -/
structure Follows (s u t t' : State) : Prop where
  tracks : Tracks s u t t'
  readAlike : t.ReadAlike t'

section
variable {s u t t' : State} {r r' : Progress × State}

theorem Tracks.respond (h : Tracks s u t t') (x : Byte) (d : Word16) :
    Follows s u (t.respond x d) (t'.respond x d) :=
  ⟨h.update (State.respond · x d) (fun _ _ => rfl) (fun _ => rfl), readAlike_of_no_job rfl⟩

theorem Tracks.finish (h : Tracks s u t t') (x : Byte) : Follows s u (t.finish x) (t'.finish x) :=
  (h.update State.leaveStages (fun _ _ => rfl) (fun _ => rfl)).respond x 0

theorem Tracks.suspend (h : Tracks s u t t') {j : Job} (h0 : t'.t0 = t.t0) (hst : j.phase = .nackStop → t'.st = t.st) :
    Follows s u (t.suspend j) (t'.suspend j) := by
  refine ⟨h.update (State.suspend · j) (fun _ _ => rfl) (fun _ => rfl), fun k hk => ?_⟩
  obtain rfl : j = k := Option.some.inj hk
  exact ⟨h0, hst⟩

/-- The data of a primitive command is that of its receive. -/
theorem RunsAlike.data {p : Prim} (h : RunsAlike p s u r r') (hok : r.1 = .ended .ok) : p.data r'.2 = p.data r.2 := by
  cases p with
  | recvB ack => exact congrArg (BitVec.setWidth 16) (h.rx rfl hok)
  | _ => rfl

theorem settlePrimitive_follows {p : Prim} (h : RunsAlike p s u r r') :
    Follows s u (settlePrimitive p r) (settlePrimitive p r') := by
  obtain ⟨o, y⟩ := r
  obtain ⟨o', y'⟩ := r'
  obtain rfl : o' = o := h.outcome
  cases o' with
  | pending ph => exact h.tracks.suspend h.t0 fun e => h.st (congrArg Progress.pending e)
  | ended o =>
    cases o with
    | ok =>
      have e : p.data y' = p.data y := h.data rfl
      simp only [settlePrimitive]
      rw [e]
      exact h.tracks.respond 0 _
    | timeout => exact h.tracks.respond _ 0
    | nack x => exact h.tracks.respond _ 0
    | fault x => exact h.tracks.respond _ 0

theorem settleCall_follows {c : Call} {cs : List Call} {rest : State → State} (h : RunsAlike c.prim t t' r r')
    (k : Tracks s u t t') (hrest : ∀ {w w'}, Tracks s u w w' → Follows s u (rest w) (rest w')) :
    Follows s u (settleCall rest c cs r) (settleCall rest c cs r') := by
  replace h := h.of k
  obtain ⟨o, y⟩ := r
  obtain ⟨o', y'⟩ := r'
  obtain rfl : o' = o := h.outcome
  have hstage : y'.stage = y.stage := h.tracks.same.stage
  cases o' with
  | pending ph => exact h.tracks.suspend h.t0 fun e => h.st (congrArg Progress.pending e)
  | ended o =>
    cases o with
    | ok => exact hrest (h.tracks.advance c fun hc => h.rx hc rfl)
    | _ =>
      simp only [settleCall]
      rw [hstage]
      exact h.tracks.finish _

theorem runCalls_follows {cs : List Call} (h : Tracks s u t t') : Follows s u (runCalls cs t) (runCalls cs t') := by
  induction cs generalizing t t' with
  | nil => exact h.finish 0
  | cons c cs ih =>
    have k := h.update (State.enterStage · c.stage) (fun _ _ => rfl) (fun _ => rfl)
    exact settleCall_follows (runPrim_alike k.same) k ih

theorem resume_follows (h : s.SameButHidden u) (hjob : s.ReadAlike u) {j : Job} (hj : s.job = some j) :
    Follows s u (j.resume s) (j.resume u) := by
  obtain ⟨h0, hst⟩ := hjob j hj
  cases j with
  | primitive ph p => exact settlePrimitive_follows (resumePrim_alike h h0 hst)
  | transaction ph c rest => exact settleCall_follows (resumePrim_alike h h0 hst) (.refl h) runCalls_follows

/-- The local commands read none of the five registers. -/
theorem exec_local_follows (h : s.SameButHidden u) {i : Instr} (hi : isLocal i = true) (hstep : exec i s = .next t) :
    ∃ t', exec i u = .next t' ∧ Follows s u t t' := by
  have k := (Tracks.refl h).update State.accept (fun _ _ => rfl) (fun _ => rfl)
  obtain ⟨v, rfl⟩ : ∃ v, u = s.withHidden v := ⟨_, h⟩
  cases i with
  | avail =>
    obtain rfl := Host.Outcome.next.inj hstep
    exact ⟨_, rfl, k.respond 0 _⟩
  | setto x =>
    obtain rfl := Host.Outcome.next.inj hstep
    exact ⟨_, rfl, (k.update (State.setTimeout · x) (fun _ _ => rfl) (fun _ => rfl)).respond 0 0⟩
  | getto =>
    obtain rfl := Host.Outcome.next.inj hstep
    exact ⟨_, rfl, k.respond 0 _⟩
  | recv =>
    rcases exec_recv_next hstep with ⟨hz, rfl⟩ | ⟨hne, n, b, hn, hb, rfl⟩
    · exact ⟨_, exec_recv_of_empty hz, k.respond 0 0⟩
    · exact ⟨_, exec_recv_of_byte hne hn hb, (k.update State.consume (fun _ _ => rfl) (fun _ => rfl)).respond 0 _⟩
  | _ => cases hi

theorem exec_follows (h : s.SameButHidden u) {i : Instr} (hstep : exec i s = .next t) :
    ∃ t', exec i u = .next t' ∧ Follows s u t t' := by
  have k := (Tracks.refl h).update State.accept (fun _ _ => rfl) (fun _ => rfl)
  rcases command_kinds i s.params.capacity with ⟨p, hp⟩ | hi | hl
  · rw [exec_of_primOf hp] at hstep ⊢
    obtain rfl := Host.Outcome.next.inj hstep
    exact ⟨_, rfl, settlePrimitive_follows ((runPrim_alike k.same).of k)⟩
  · rw [exec_of_transaction hi] at hstep ⊢
    rw [h.params]
    obtain rfl := Host.Outcome.next.inj hstep
    refine ⟨_, rfl, runCalls_follows (Tracks.update ?_ State.leaveStages (fun _ _ => rfl) (fun _ => rfl))⟩
    unfold State.acceptFor
    split
    · exact k.update State.clearBuffer (fun _ _ => rfl) (fun _ => rfl)
    · exact k
  · exact exec_local_follows h hl hstep

theorem servePort_follows (h : s.SameButHidden u) (hjob : s.ReadAlike u) (hstep : servePort s = .next t) :
    ∃ t', servePort u = .next t' ∧ Follows s u t t' := by
  unfold servePort at hstep ⊢
  rw [h.offers]
  split at hstep
  next hoff =>
    obtain rfl := Host.Outcome.next.inj hstep
    exact ⟨u, rfl, .refl h, hjob⟩
  next pkt rest hoff =>
    have k := (Tracks.refl h).update (State.setOffers · rest) (fun _ _ => rfl) (fun _ => rfl)
    split at hstep
    next i hdec =>
      obtain ⟨t', he, f⟩ := exec_follows k.same hstep
      exact ⟨t', he, k.trans f.tracks, f.readAlike⟩
    next =>
      obtain rfl := Host.Outcome.next.inj hstep
      exact ⟨_, rfl, k.update State.refuse (fun _ _ => rfl) (fun _ => rfl), hjob⟩

/-- Out of reset, a pair of states that agree on what will be read steps to such a pair. -/
theorem step_follows (h : s.SameButHidden u) (hjob : s.ReadAlike u) (hr : s.resetLine = false)
    (hstep : step s = .next t) : ∃ t', step u = .next t' ∧ Follows s u t t' := by
  have hru : u.resetLine = false := h.resetLine.trans hr
  cases hb : s.busy with
  | false =>
    have hbu : u.busy = false := h.busy.trans hb
    rw [step, hr, hb] at hstep
    rw [step, hru, hbu]
    exact servePort_follows h hjob hstep
  | true =>
    have hbu : u.busy = true := h.busy.trans hb
    cases hj : s.job with
    | none =>
      simp [step, hr, hb, continueCommand, hj] at hstep
    | some j =>
      have hju : u.job = some j := h.job.trans hj
      obtain ⟨hfit, rfl⟩ := step_of_busy hr hb hj hstep
      refine ⟨j.resume u, ?_, resume_follows h hjob hj⟩
      simp [step, hru, hbu, continueCommand, hju, h.fits, hfit]

/-! ### The two relations of the statements -/

theorem State.SameButUnread.sameButHidden (h : s.SameButUnread u) : s.SameButHidden u := by
  obtain ⟨t0, st, rx, rfl, -⟩ := h
  rfl

theorem State.SameButUnread.readAlike (h : s.SameButUnread u) : s.ReadAlike u := by
  obtain ⟨t0, st, rx, rfl, hj⟩ := h
  exact hj

theorem State.SameButUnread.observed (h : s.SameButUnread u) : u.hbTrace = s.hbTrace ∧ u.busHeld = s.busHeld := by
  obtain ⟨t0, st, rx, rfl, -⟩ := h
  exact ⟨rfl, rfl⟩

/-- With the observation variables equal at first, they are equal after. -/
theorem Follows.sameButUnread (h : Follows s u t t') (ho : u.hbTrace = s.hbTrace ∧ u.busHeld = s.busHeld) :
    t.SameButUnread t' := by
  obtain ⟨ops, e, e'⟩ := h.tracks.ops
  have htr : t'.hbTrace = t.hbTrace := by rw [e, e', ho.1]
  have hh : t'.busHeld = t.busHeld := by
    rcases h.tracks.busHeld with hh | ⟨hh', hh⟩
    · exact hh
    · rw [hh, hh', ho.2]
  refine ⟨t'.t0, t'.st, t'.rx, ?_, h.readAlike⟩
  rw [← htr, ← hh]
  exact h.tracks.same

theorem State.SameButUnread.refl (s : State) : s.SameButUnread s :=
  ⟨s.t0, s.st, s.rx, rfl, fun _ _ => ⟨rfl, fun _ => rfl⟩⟩

theorem step_sameButUnread (h : s.SameButUnread u) (hstep : step s = .next t) :
    ∃ t', step u = .next t' ∧ t.SameButUnread t' := by
  cases hr : s.resetLine with
  | true =>
    have hru : u.resetLine = true := h.sameButHidden.resetLine.trans hr
    have e : u.takeReset = s.takeReset := by rw [h.sameButHidden]; rfl
    rw [step, if_pos hr] at hstep
    obtain rfl := Host.Outcome.next.inj hstep
    exact ⟨s.takeReset, by rw [step, if_pos hru, e], .refl _⟩
  | false =>
    obtain ⟨t', he, f⟩ := step_follows h.sameButHidden h.readAlike hr hstep
    exact ⟨t', he, f.sameButUnread h.observed⟩

end

end Sys2Proof.Machine

namespace Sys2Proof.Proofs

open Sys2Proof.Machine

/-- Settles O43: the step from the state with the other trace and `bus_held` tracks the first, and the registers the two
states share at first they share after. -/
theorem observationVariablesNotRead : Obligations.ObservationVariablesNotRead := by
  intro s t trace held hr hstep
  obtain ⟨t', he, f⟩ := step_follows (u := { s with hbTrace := trace, busHeld := held }) rfl
    (fun _ _ => ⟨rfl, fun _ => rfl⟩) hr hstep
  obtain ⟨ops, htr, htr'⟩ := f.tracks.ops
  refine ⟨ops, t'.busHeld, htr, ?_, f.tracks.busHeld⟩
  have e : t' = { t with hbTrace := trace ++ ops, busHeld := t'.busHeld } := by
    conv_lhs => rw [f.tracks.same, State.withHidden, State.hidden]
    rw [f.tracks.t0 rfl, f.tracks.st rfl, f.tracks.rx rfl, htr']
  rw [he, ← e]

/-- Settles O44: a primitive writes `t0`, `st` and `rx` before it reads them, so a step carries the relation on, and a
command's first step establishes it from any values of the three. -/
theorem unspecifiedRegistersNeverMatter : Obligations.UnspecifiedRegistersNeverMatter := by
  refine ⟨fun _ _ _ h hstep => step_sameButUnread h hstep, fun i s t t0 st rx hstep => ?_⟩
  obtain ⟨t', he, f⟩ := exec_follows (u := { s with t0 := t0, st := st, rx := rx }) rfl hstep
  exact ⟨t', he, f.sameButUnread ⟨rfl, rfl⟩⟩

end Sys2Proof.Proofs
end

section
/-! PROOFS. Packets and commands: the encoder and the decoder are inverse, and which packets are illegal
(spec/30_encoding.md R71 to R74, R79, R88). -/

namespace Sys2Proof

/-! ### A command's packet decodes to it -/

/-- The length field keeps the length of a payload that fits (R83). -/
theorem length_mod_of_payloadFits {d : List Byte} (h : payloadFits d = true) : d.length % 65536 = d.length :=
  have hd : d.length ≤ 65535 := of_decide_eq_true h
  Nat.mod_eq_of_lt (by omega)

theorem decode_encode {i : Instr} (h : i.wellFormed = true) : decode (encode i) = .ok i := by
  cases i with
  | writeP8 a p d =>
    have hd := length_mod_of_payloadFits (d := d) h
    simp [encode, decode, rowOf, Row.operands, lengthBytes, hd]
  | writeP16 a p d =>
    have hd := length_mod_of_payloadFits (d := d) h
    simp [encode, decode, rowOf, Row.operands, lengthBytes, hd]
  | read a n => simp [encode, decode, rowOf, Row.operands]
  | wrrdP8 a p n => simp [encode, decode, rowOf, Row.operands]
  | wrrdP16 a p n => simp [encode, decode, rowOf, Row.operands]
  | setto t => simp [encode, decode, rowOf, Row.operands]
  | _ => rfl

/-! ### A packet that decodes is its command's packet -/

/-- The commands of a row have the packets its format (R71) gives: the opcode, then the operands' bytes. -/
def Row.EncodesWith (op : Byte) : Row → Prop
  | .z i => encode i = [op]
  | .b k => ∀ x, encode (k x) = [op, x]
  | .t k => ∀ t, encode (k t) = [op, hiByte t, loByte t]
  | .r k => ∀ a n, encode (k a n) = [op, addressByte a, hiByte n, loByte n]
  | .x8 k => ∀ a p n, encode (k a p n) = [op, addressByte a, p, hiByte n, loByte n]
  | .x16 k => ∀ a p n, encode (k a p n) = [op, addressByte a, hiByte p, loByte p, hiByte n, loByte n]
  | .w8 k => ∀ a p d, encode (k a p d) = op :: addressByte a :: p :: (lengthBytes d ++ d)
  | .w16 k => ∀ a p d, encode (k a p d) = op :: addressByte a :: hiByte p :: loByte p :: (lengthBytes d ++ d)

theorem eq_ofNat_of_toNat {w n : Nat} {b : BitVec w} (h : b.toNat = n) : b = BitVec.ofNat w n := by
  rw [← h, BitVec.ofNat_toNat, BitVec.setWidth_eq]

theorem rowOf_encodesWith {op : Byte} {row : Row} (h : rowOf op.toNat = some row) : row.EncodesWith op := by
  unfold rowOf at h
  split at h <;> cases h
  all_goals
    obtain rfl := eq_ofNat_of_toNat ‹op.toNat = _›
    simp [Row.EncodesWith, encode]

/-- The length field of a payload it describes. -/
theorem lengthBytes_of_length {d : List Byte} {mh ml : Byte} (h : d.length = (joinBytes mh ml).toNat) :
    lengthBytes d = [mh, ml] := by
  rw [lengthBytes, ← eq_ofNat_of_toNat h.symm]
  simp

theorem Row.encode_of_operands {op : Byte} {row : Row} (hrow : row.EncodesWith op) {bs : List Byte} {i : Instr}
    (h : row.operands bs = .ok i) : encode i = op :: bs := by
  unfold Row.operands at h
  split at h
  · cases h; exact hrow
  · cases h; exact hrow _
  · cases h; rw [hrow]; simp
  · obtain ⟨a, rfl, rfl⟩ := withAddress_ok h; rw [hrow]; simp
  · obtain ⟨a, rfl, rfl⟩ := withAddress_ok h; rw [hrow]; simp
  · obtain ⟨a, rfl, rfl⟩ := withAddress_ok h; rw [hrow]; simp
  · split at h
    · obtain ⟨a, rfl, rfl⟩ := withAddress_ok h; rw [hrow, lengthBytes_of_length ‹_›]; rfl
    · cases h
  · split at h
    · obtain ⟨a, rfl, rfl⟩ := withAddress_ok h; rw [hrow, lengthBytes_of_length ‹_›]; simp
    · cases h
  · cases h

theorem encode_of_decode {pkt : List Byte} {i : Instr} (h : decode pkt = .ok i) : encode i = pkt := by
  cases pkt with
  | nil => cases h
  | cons op rest =>
    simp only [decode] at h
    split at h
    · cases h
    · exact Row.encode_of_operands (rowOf_encodesWith ‹_›) h

/-! ### Illegal packets -/

/-- The formats with an address operand (R71). -/
def Row.hasAddress : Row → Bool
  | .z _ => false
  | .b _ => false
  | .t _ => false
  | .r _ => true
  | .x8 _ => true
  | .x16 _ => true
  | .w8 _ => true
  | .w16 _ => true

theorem hasAddress_of_rowOf {op : Byte} {row : Row} (h : rowOf op.toNat = some row) :
    hasAddress op = row.hasAddress := by
  unfold rowOf at h
  split at h <;> cases h
  all_goals
    obtain rfl := eq_ofNat_of_toNat ‹op.toNat = _›
    rfl

/-- R73's lengths are those of the decoder's rows. -/
theorem ruleLength_eq (op : Byte) (rest : List Byte) :
    ruleLength (op :: rest) = (rowOf op.toNat).map (Row.packetLength (op :: rest)) := by
  unfold rowOf
  split <;> simp_all [ruleLength, Row.packetLength, joinBytes_toNat]

theorem withAddress_eq (a : Byte) (k : BusAddress → Instr) :
    ∃ i, withAddress a k = if a.getLsbD 7 = true then .error .addressBit7 else .ok i := ⟨_, rfl⟩

theorem length_eq_packetLength_iff_w8 {op a p mh ml : Byte} {d : List Byte} {k : BusAddress → Byte → List Byte → Instr} :
    (op :: a :: p :: mh :: ml :: d).length = (Row.w8 k).packetLength (op :: a :: p :: mh :: ml :: d) ↔
      d.length = (joinBytes mh ml).toNat := by
  simp only [List.length_cons, Row.packetLength, List.getD_cons_succ, List.getD_cons_zero]
  omega

theorem length_eq_packetLength_iff_w16 {op a ph pl mh ml : Byte} {d : List Byte}
    {k : BusAddress → Word16 → List Byte → Instr} :
    (op :: a :: ph :: pl :: mh :: ml :: d).length = (Row.w16 k).packetLength (op :: a :: ph :: pl :: mh :: ml :: d) ↔
      d.length = (joinBytes mh ml).toNat := by
  simp only [List.length_cons, Row.packetLength, List.getD_cons_succ, List.getD_cons_zero]
  omega

/-- A packet of another length than its row's is rejected for it, before its address is looked at (R88). -/
theorem Row.operands_of_length_ne {op : Byte} {row : Row} {rest : List Byte}
    (h : (op :: rest).length ≠ row.packetLength (op :: rest)) : row.operands rest = .error .badLength := by
  unfold Row.operands
  split
  case h_7 => exact if_neg (mt length_eq_packetLength_iff_w8.2 h)
  case h_8 => exact if_neg (mt length_eq_packetLength_iff_w16.2 h)
  case h_9 => rfl
  all_goals exact absurd rfl h

/-- A packet of its row's length is rejected only for its address (R88). -/
theorem Row.operands_of_length_eq {op : Byte} {row : Row} {rest : List Byte}
    (h : (op :: rest).length = row.packetLength (op :: rest)) :
    ∃ i, row.operands rest =
      if row.hasAddress = true ∧ (rest.headD 0).getLsbD 7 = true then .error .addressBit7 else .ok i := by
  cases row with
  | z i =>
    match rest, h with
    | [], _ => exact ⟨i, rfl⟩
  | b k =>
    match rest, h with
    | [x], _ => exact ⟨k x, rfl⟩
  | t k =>
    match rest, h with
    | [th, tl], _ => exact ⟨k (joinBytes th tl), rfl⟩
  | r k =>
    match rest, h with
    | [a, nh, nl], _ => simpa [Row.operands, Row.hasAddress] using withAddress_eq a _
  | x8 k =>
    match rest, h with
    | [a, p, nh, nl], _ => simpa [Row.operands, Row.hasAddress] using withAddress_eq a _
  | x16 k =>
    match rest, h with
    | [a, ph, pl, nh, nl], _ => simpa [Row.operands, Row.hasAddress] using withAddress_eq a _
  | w8 k =>
    have hlen : 4 ≤ rest.length := by simp only [List.length_cons, Row.packetLength] at h; omega
    match rest, hlen with
    | a :: p :: mh :: ml :: d, _ =>
      simpa [Row.operands, Row.hasAddress, length_eq_packetLength_iff_w8.1 h] using withAddress_eq a _
  | w16 k =>
    have hlen : 5 ≤ rest.length := by simp only [List.length_cons, Row.packetLength] at h; omega
    match rest, hlen with
    | a :: ph :: pl :: mh :: ml :: d, _ =>
      simpa [Row.operands, Row.hasAddress, length_eq_packetLength_iff_w16.1 h] using withAddress_eq a _

/-- The decoder's causes of a rejection are R88's, in its order. -/
theorem decode_error_iff (op : Byte) (rest : List Byte) :
    (decode (op :: rest) = .error .reservedOpcode ↔ ruleLength (op :: rest) = none) ∧
      (decode (op :: rest) = .error .badLength ↔ ∃ n, ruleLength (op :: rest) = some n ∧ (op :: rest).length ≠ n) ∧
      (decode (op :: rest) = .error .addressBit7 ↔
        ruleLength (op :: rest) = some (op :: rest).length ∧ hasAddress op = true ∧
          (rest.headD 0).getLsbD 7 = true) := by
  rw [ruleLength_eq]
  cases hrow : rowOf op.toNat with
  | none => simp [decode, hrow]
  | some row =>
    have hd : decode (op :: rest) = row.operands rest := by simp only [decode, hrow]
    rw [hd, hasAddress_of_rowOf hrow, Option.map_some]
    by_cases hlen : (op :: rest).length = row.packetLength (op :: rest)
    · obtain ⟨i, hi⟩ := Row.operands_of_length_eq hlen
      rw [hi, ← hlen]
      split
      next hbad => simpa using hbad
      next hgood => simpa using hgood
    · simp [Row.operands_of_length_ne hlen, hlen, Ne.symm hlen, -List.length_cons]

end Sys2Proof

namespace Sys2Proof.Proofs

/-- Settles O2. -/
theorem packetWordsDecode : Obligations.PacketWordsDecode := ⟨rfl, rfl, rfl, rfl, rfl, rfl, rfl, rfl, rfl⟩

/-- Settles O3: the decoder joins the two bytes of a field again, and a payload that fits has its length in its field. -/
theorem decodeOfEncode : Obligations.DecodeOfEncode := fun _ h => decode_encode h

/-- Settles O4: each row's operands take every byte of the packet into the command, and the address check leaves no bit
of the address byte out. -/
theorem encodeOfDecode : Obligations.EncodeOfDecode := fun _ _ h => ⟨encode_of_decode h, decode_wellFormed h⟩

end Sys2Proof.Proofs
end

section
/-! PROOFS. The command port: one response for a command, none while it runs, one refusal for an illegal packet
(spec/30_encoding.md R70, R86, R88). -/

namespace Sys2Proof.Machine

theorem step_of_packet {s : State} {pkt : List Byte} {rest : List (List Byte)} {i : Instr} (hr : s.resetLine = false)
    (hb : s.busy = false) (ho : s.offers = pkt :: rest) (hd : decode pkt = .ok i) :
    step s = exec i (s.setOffers rest) := by
  simp [step, servePort, hr, hb, ho, hd]

theorem step_of_illegal {s : State} {pkt : List Byte} {rest : List (List Byte)} {e : Reject} (hr : s.resetLine = false)
    (hb : s.busy = false) (ho : s.offers = pkt :: rest) (hd : decode pkt = .error e) :
    step s = .next (s.setOffers rest).refuse := by
  simp [step, servePort, hr, hb, ho, hd]

/-- The command accepted in `s` stands in `t`: ended with one response more, or still in progress with none. -/
def RespondsOnce (s t : State) : Prop :=
  (t.busy = false ∧ t.job = none ∧ ∃ r, t.responses = s.responses ++ [r] ∧ r.illegal = false) ∨
    (t.busy = true ∧ t.job.isSome ∧ t.responses = s.responses)

/-- The command accepted in `s` is running in `t`, with no response handed back. -/
structure Running (s t : State) : Prop where
  busy : t.busy = true
  responses : t.responses = s.responses

section
variable {s t u : State}

theorem Running.prim (h : Running s t) (f : PrimFrame t u) : Running s u :=
  ⟨f.busy.trans h.busy, f.responses.trans h.responses⟩

theorem Running.advance (h : Running s t) (c : Call) : Running s (c.advance t) := by
  obtain ⟨hb, hr⟩ := h
  unfold Call.advance
  cases c.prim <;> exact ⟨hb, hr⟩

theorem Running.respond (h : Running s t) (x : Byte) (d : Word16) : RespondsOnce s (t.respond x d) :=
  .inl ⟨rfl, rfl, _, by rw [State.respond_responses, h.responses], rfl⟩

theorem Running.suspend (h : Running s t) (j : Job) : RespondsOnce s (t.suspend j) := .inr ⟨h.busy, rfl, h.responses⟩

theorem Running.settlePrimitive {p : Prim} {r : Progress × State} (h : Running s r.2) :
    RespondsOnce s (settlePrimitive p r) := by
  rcases settlePrimitive_cases p r with ⟨x, d, e⟩ | ⟨ph, -, e⟩ <;> rw [e]
  · exact h.respond x d
  · exact h.suspend _

end

theorem respondsOnce_rule (s : State) :
    StageRule (fun _ t => Running s t) (fun _ _ r => Running s r.2) (RespondsOnce s) where
  run {c _ t} h := Running.prim (t := t.enterStage c.stage) ⟨h.busy, h.responses⟩ (runPrim_frame _ _)
  ok h := h.advance _
  fails {_ _ _ t} x h := Running.respond (t := t.leaveStages) ⟨h.busy, h.responses⟩ x 0
  goesOn h := h.suspend _
  finish {t} h := Running.respond (t := t.leaveStages) ⟨h.busy, h.responses⟩ 0 0

theorem exec_respondsOnce {i : Instr} {s t : State} (h : exec i s = .next t) : RespondsOnce s t := by
  have accepted : Running s s.accept := ⟨rfl, rfl⟩
  rcases command_kinds i s.params.capacity with ⟨p, hp⟩ | hi | hl
  · rw [exec_of_primOf hp] at h
    obtain rfl := Host.Outcome.next.inj h
    exact (accepted.prim (runPrim_frame p _)).settlePrimitive
  · rw [exec_of_transaction hi] at h
    obtain rfl := Host.Outcome.next.inj h
    refine (respondsOnce_rule s).runCalls ?_
    unfold State.acceptFor
    split <;> exact ⟨rfl, rfl⟩
  · obtain ⟨d, rfl | ⟨v, -, rfl⟩ | ⟨-, -, rfl⟩⟩ := exec_local_next hl h
    · exact accepted.respond 0 d
    · exact Running.respond (t := s.accept.setTimeout v) ⟨rfl, rfl⟩ 0 d
    · exact Running.respond (t := s.accept.consume) ⟨rfl, rfl⟩ 0 d

theorem resume_respondsOnce {s : State} (hb : s.busy = true) (j : Job) : RespondsOnce s (j.resume s) := by
  have running : Running s s := ⟨hb, rfl⟩
  cases j with
  | primitive ph p => exact (running.prim (resumePrim_frame ph p s)).settlePrimitive
  | transaction ph c rest =>
    exact (respondsOnce_rule s).settle (r := resumePrim ph c.prim s) (running.prim (resumePrim_frame ph c.prim s))

/-- A running command that goes on writes no parameter, no timeout and takes no packet. -/
theorem resume_commandFrame (j : Job) (s : State) : CommandFrame s (j.resume s) := by
  have same : CommandFrame s s := ⟨rfl, rfl, rfl, rfl⟩
  cases j with
  | primitive ph p =>
    have h := same.prim (resumePrim_frame ph p s)
    rw [Job.resume]
    rcases settlePrimitive_cases p (resumePrim ph p s) with ⟨x, d, e⟩ | ⟨ph', -, e⟩ <;> rw [e] <;>
      exact ⟨h.params, h.timeoutMs, h.resetLine, h.offers⟩
  | transaction ph c rest =>
    exact (commandFrame_rule s).settle (r := resumePrim ph c.prim s) (same.prim (resumePrim_frame ph c.prim s))

/-- A busy block that steps has a command in progress (R27). -/
theorem exists_job_of_step {s t : State} (hr : s.resetLine = false) (hb : s.busy = true) (h : step s = .next t) :
    ∃ j, s.job = some j := by
  cases hj : s.job with
  | some j => exact ⟨j, rfl⟩
  | none => simp [step, hr, hb, continueCommand, hj] at h

end Sys2Proof.Machine

namespace Sys2Proof.Proofs

open Sys2Proof.Machine

/-- Settles O1. -/
theorem stepRunsDecodedCommand : Obligations.StepRunsDecodedCommand :=
  fun _ _ _ _ hr hb ho hd => step_of_packet hr hb ho hd

/-- Settles O5: a packet's row fixes its length and whether it has an address, and its operands are read only where both
are right; a refusal is the response and the packet gone. -/
theorem illegalPacketsRefused : Obligations.IllegalPacketsRefused :=
  ⟨decode_error_iff, fun _ _ _ _ _ hr hb ho hd => step_of_illegal hr hb ho hd⟩

/-- Settles O37, by the three kinds of commands. -/
theorem oneResponsePerCommand : Obligations.OneResponsePerCommand := fun _ _ _ h => exec_respondsOnce h

/-- Settles O38: the step is the running command's, which takes no packet and responds at most once. -/
theorem busyBlockAcceptsNothing : Obligations.BusyBlockAcceptsNothing := by
  intro s t hr hb h
  obtain ⟨j, hj⟩ := exists_job_of_step hr hb h
  obtain ⟨-, rfl⟩ := step_of_busy hr hb hj h
  have f := resume_commandFrame j s
  refine ⟨f.offers, f.params, f.timeoutMs, ?_⟩
  rcases resume_respondsOnce hb j with ⟨hidle, -, r, hresp, -⟩ | ⟨hbusy, -, hresp⟩
  · exact .inl ⟨hidle, r, hresp⟩
  · exact .inr ⟨hbusy, hresp⟩

end Sys2Proof.Proofs
end

section
/-! PROOFS. The operands of the commands: the wire address byte and the count (spec/30_encoding.md R80, R82). -/

namespace Sys2Proof.Machine

/-! ### The wire address byte (R80) -/

theorem slaW_toNat (a : BusAddress) : (slaW a).toNat = 2 * a.toNat := by
  have := a.isLt
  simp only [slaW, BitVec.toNat_shiftLeft, BitVec.toNat_setWidth, Nat.shiftLeft_eq]
  omega

theorem slaW_getLsbD_zero (a : BusAddress) : (slaW a).getLsbD 0 = false := by simp [slaW]

theorem slaW_getLsbD_succ (a : BusAddress) {k : Nat} (hk : k < 7) : (slaW a).getLsbD (k + 1) = a.getLsbD k := by
  simp [slaW, hk, Nat.succ_lt_succ hk]

/-- The shift leaves bit 0 free, so setting it adds one. -/
theorem slaR_eq_slaW_add_one (a : BusAddress) : slaR a = slaW a + 1 := by
  refine (BitVec.add_eq_or_of_and_eq_zero (slaW a) 1 ?_).symm
  ext i hi
  cases i <;> simp [slaW]

theorem slaR_toNat (a : BusAddress) : (slaR a).toNat = 2 * a.toNat + 1 := by
  have := a.isLt
  have h1 : (1 : Byte).toNat = 1 := rfl
  rw [slaR_eq_slaW_add_one, BitVec.toNat_add, slaW_toNat, h1, Nat.mod_eq_of_lt (by omega)]

theorem slaR_getLsbD_zero (a : BusAddress) : (slaR a).getLsbD 0 = true := by simp [slaR]

theorem slaR_getLsbD_succ (a : BusAddress) {k : Nat} (hk : k < 7) : (slaR a).getLsbD (k + 1) = a.getLsbD k := by
  simp [slaR, hk, Nat.succ_lt_succ hk]

/-! ### The count (R82, R151) -/

theorem normalise_zero (c : Nat) : normalise c 0 = 1 := rfl

theorem normalise_of_capacity_lt {c : Nat} {n : Word16} (h : c < n.toNat) : normalise c n = c := by
  rw [normalise, if_neg (by omega), if_pos h]

theorem normalise_of_le_capacity {c : Nat} {n : Word16} (h0 : n ≠ 0) (h : n.toNat ≤ c) : normalise c n = n.toNat := by
  have hn : n.toNat ≠ 0 := fun e => h0 (BitVec.eq_of_toNat_eq e)
  rw [normalise, if_neg hn, if_neg (by omega)]

theorem one_le_normalise {c : Nat} (hc : 1 ≤ c) (n : Word16) : 1 ≤ normalise c n := by
  unfold normalise
  split_ifs <;> omega

end Sys2Proof.Machine

namespace Sys2Proof.Proofs

open Sys2Proof.Machine

/-- Settles O6: the two wire bytes bit by bit and as numbers; SENDA's success and NACK sets do not name its byte. -/
theorem wireAddressByte : Obligations.WireAddressByte :=
  ⟨fun a => ⟨slaW_toNat a, slaR_toNat a, slaW_getLsbD_zero a, slaR_getLsbD_zero a,
      fun _ hk => ⟨slaW_getLsbD_succ a hk, slaR_getLsbD_succ a hk⟩⟩,
    rfl, rfl, rfl, rfl, fun _ _ _ _ => ⟨rfl, rfl⟩⟩

/-- Settles O7. -/
theorem countNormalised : Obligations.CountNormalised := by
  intro p n
  refine ⟨?_, normalise_of_capacity_lt, normalise_of_le_capacity, one_le_normalise p.capacity_pos n,
    normalise_le p.capacity_pos n⟩
  rintro rfl
  exact normalise_zero _

end Sys2Proof.Proofs
end

section
/-! PROOFS. The primitive commands START, SENDA, SENDB, RECVB.A, RECVB.N, STOP: the next state for every outcome
they end with (spec/40_primitives.md R100 to R109). -/

namespace Sys2Proof.Machine

/-! ### The status decision (R100) -/

section
variable {c : StatusCodes} {p : Prim} {x : Byte}

/-- A legal configuration (R84) gives no primitive a status that is a success and a NACK. -/
theorem not_mem_successSet_of_mem_nackSet (hc : c.Valid) (h : x ∈ nackSet c p) : x ∉ successSet c p := by
  have hd := hc.1
  simp only [StatusCodes.toList, List.nodup_cons, List.mem_cons, not_or] at hd
  cases p with
  | sendA b =>
    simp only [nackSet, successSet, List.mem_cons, List.not_mem_nil, or_false] at h ⊢
    rcases h with rfl | rfl <;> grind
  | sendB b =>
    simp only [nackSet, successSet, List.mem_cons, List.not_mem_nil, or_false] at h ⊢
    grind
  | start => cases h
  | recvB ack => cases h
  | stop => cases h

theorem judge_of_mem_successSet (h : x ∈ successSet c p) : judge c p x = .success := if_pos h

theorem judge_of_mem_nackSet (hc : c.Valid) (h : x ∈ nackSet c p) : judge c p x = .nack := by
  rw [judge, if_neg (not_mem_successSet_of_mem_nackSet hc h), if_pos h]

theorem judge_of_not_mem (hs : x ∉ successSet c p) (hn : x ∉ nackSet c p) : judge c p x = .other := by
  rw [judge, if_neg hs, if_neg hn]

end

section
variable {p : Prim} {a : Answer} {s : State}

theorem decideStatus_of_success (h : judge s.params.codes p s.st = .success) :
    decideStatus p a s = (.ended .ok, s.succeed p a) := by
  rw [decideStatus, h]

theorem decideStatus_of_other (h : judge s.params.codes p s.st = .other) :
    decideStatus p a s = (.ended (.fault s.st), s.recover) := by
  rw [decideStatus, h]

/-- The NACK path (R109) ends where its stop does. -/
theorem decideStatus_of_nack {o : PrimOutcome} {t : State} (h : judge s.params.codes p s.st = .nack)
    (ht : primStop s = (.ended o, t)) : decideStatus p a s = (.ended (.nack s.st), t) := by
  rw [decideStatus, h, ht]
  rfl

end

/-! ### A primitive command, outcome by outcome -/

/-- The state in which the primitive `p`, begun in `s`, has read its status (R100). -/
def State.statusRead (s : State) (p : Prim) : State := (s.polled p.busOp .complete).latchStatus s.answer.status

/-- A recovery after the status was read: what both write, in one update. -/
theorem State.statusRead_recover (s : State) (p : Prim) :
    (s.statusRead p).recover =
      { s.polled p.busOp .complete with
        st := s.answer.status
        hbTrace := (s.polled p.busOp .complete).hbTrace ++ [.status, .forceReset]
        busHeld := false } := by
  simp [State.statusRead, State.recover, State.latchStatus]

/-- A byte taken after the status was read: what both write, in one update. -/
theorem State.statusRead_latchRx (s : State) (p : Prim) (v : Byte) :
    (s.statusRead p).latchRx v =
      { s.polled p.busOp .complete with
        st := s.answer.status
        rx := v
        hbTrace := (s.polled p.busOp .complete).hbTrace ++ [.status, .rxData] } := by
  simp [State.statusRead, State.latchRx, State.latchStatus]

section
variable {i : Instr} {p : Prim} {s : State} (hi : primOf i = some p)
include hi

/-- The command of a primitive that ends with `o`: that outcome's response, with data only on a success (R100). Being
accepted leaves no mark on it, since the response ends the command. -/
theorem exec_of_ended {o : PrimOutcome} {t : State} (h : runPrim p s.accept = (.ended o, t)) :
    exec i s = .next (t.answered o.code (if o = .ok then p.data t else 0)) := by
  rw [exec_of_primOf hi, runPrimitiveCommand, h]
  cases o <;> rfl

/-- An expired wait (R128). -/
theorem exec_of_timeout (h : s.answer.primWait s.timeoutMs p = .timeout) :
    exec i s = .next ((s.polled p.busOp p.waitsOn).recover.answered 1 0) :=
  exec_of_ended hi (runPrim_timeout (s := s.accept) h)

section
variable (hp : p ≠ .stop) (hw : s.answer.primWait s.timeoutMs p = .done)
include hp hw

/-- A status in the success set (R100). -/
theorem exec_of_success (hs : s.answer.status ∈ successSet s.params.codes p) :
    exec i s = .next (((s.statusRead p).succeed p s.answer).answered 0
      (p.data ((s.statusRead p).succeed p s.answer))) := by
  have e := (runPrim_done (s := s.accept) hp hw).trans (decideStatus_of_success (judge_of_mem_successSet hs))
  rw [exec_of_ended hi e]
  cases p <;> rfl

/-- A status in neither set (R100, R107). -/
theorem exec_of_other (hs : s.answer.status ∉ successSet s.params.codes p)
    (hn : s.answer.status ∉ nackSet s.params.codes p) :
    exec i s = .next ((s.statusRead p).recover.answered s.answer.status 0) :=
  exec_of_ended hi ((runPrim_done (s := s.accept) hp hw).trans (decideStatus_of_other (judge_of_not_mem hs hn)))

/-- A status in the NACK set (R109): whatever the stop that follows ends with, the status is returned from the state the
stop leaves. -/
theorem exec_of_nack (hn : s.answer.status ∈ nackSet s.params.codes p) {o : PrimOutcome} {t : State}
    (h : primStop (s.statusRead p).accept = (.ended o, t)) : exec i s = .next (t.answered s.answer.status 0) :=
  have hj := judge_of_mem_nackSet s.params.codes_valid hn
  exec_of_ended hi ((runPrim_done (s := s.accept) hp hw).trans (decideStatus_of_nack hj h))

end

end

/-- What SENDA and SENDB have in common: they read a status, and a success leaves nothing but the response (R102,
R103). -/
structure Prim.Sends (p : Prim) : Prop where
  ne_stop : p ≠ .stop
  waitsOn : p.waitsOn = .complete
  succeed : ∀ (s : State) (a : Answer), s.succeed p a = s
  data : ∀ s : State, p.data s = 0

theorem Prim.sendA_sends (b : Byte) : (Prim.sendA b).Sends := ⟨nofun, rfl, fun _ _ => rfl, fun _ => rfl⟩

theorem Prim.sendB_sends (b : Byte) : (Prim.sendB b).Sends := ⟨nofun, rfl, fun _ _ => rfl, fun _ => rfl⟩

/-- R102 and R103 at once: the command of a primitive that sends, by what its wait and the status come to. -/
theorem sendCommandMeets {i : Instr} {p : Prim} (hi : primOf i = some p) (hp : p.Sends) :
    Claim.SendCommandMeets i p.busOp (fun c => successSet c p) (fun c => nackSet c p) := by
  intro s
  have hwait : s.answer.primWait s.timeoutMs p = s.answer.waitEnd .complete s.timeoutMs := by
    rw [primWait_eq, hp.waitsOn]
  dsimp only
  rw [← hwait]
  refine ⟨fun hw hs => ?_, fun hw hn hb => ?_, fun hw hn hb => ?_, fun hw hs hn => ?_, fun hw => ?_⟩
  · rw [exec_of_success hi hp.ne_stop hw hs, hp.succeed, hp.data]
    rfl
  · rw [exec_of_nack hi hp.ne_stop hw hn (runPrim_stop_done (s := (s.statusRead p).accept) hb)]
    rfl
  · rw [exec_of_nack hi hp.ne_stop hw hn (runPrim_timeout (p := .stop) (s := (s.statusRead p).accept) hb)]
    rfl
  · exact exec_of_other hi hp.ne_stop hw hs hn
  · rw [exec_of_timeout hi hw, hp.waitsOn]
    rfl

/-- R104 and R105 at once: the command of a receive, which succeeds on one status only and has no NACK set. -/
theorem receiveCommandMeets {i : Instr} {ack : Bool} {want : StatusCodes → Byte} (hi : primOf i = some (.recvB ack))
    (hw : ∀ c, successSet c (.recvB ack) = [want c]) : Claim.ReceiveCommandMeets i ack want := by
  refine fun s => ⟨fun hd hs => ?_, fun hd hs => ?_, exec_of_timeout hi⟩
  · rw [exec_of_success hi (by simp) hd (by simp [hw, hs])]
    simp only [State.succeed, State.statusRead_latchRx]
    rfl
  · rw [exec_of_other hi (by simp) hd (by simp [hw, hs]) (by simp [nackSet]), State.statusRead_recover]
    rfl

end Sys2Proof.Machine

namespace Sys2Proof.Proofs

open Sys2Proof.Machine

/-- Settles O14: an answer outside START's two success values is in neither set, START having no NACK set. -/
theorem startCommand : Obligations.StartCommand := by
  refine ⟨decode_encode (i := .start) rfl, fun s => ⟨fun hw hs => ?_, fun hw h1 h2 => ?_, fun hw => ?_⟩⟩
  · exact exec_of_success (p := .start) rfl (by simp) hw (by simpa [successSet] using hs)
  · rw [exec_of_other (p := .start) rfl (by simp) hw (by simp [successSet, h1, h2]) (by simp [nackSet]),
      State.statusRead_recover]
    rfl
  · exact exec_of_timeout (p := .start) rfl hw

/-- Settles O15: SENDA is a send, with the address statuses of either direction. -/
theorem sendAddressCommand : Obligations.SendAddressCommand := fun b =>
  ⟨decode_encode (i := .senda b) rfl, sendCommandMeets rfl (Prim.sendA_sends b)⟩

/-- Settles O16: SENDB is a send, with the data statuses. -/
theorem sendByteCommand : Obligations.SendByteCommand := fun b =>
  ⟨decode_encode (i := .sendb b) rfl, sendCommandMeets rfl (Prim.sendB_sends b)⟩

/-- Settles O17: RECVB.A is a receive that expects the acknowledged data status. -/
theorem receiveAckCommand : Obligations.ReceiveAckCommand :=
  ⟨decode_encode (i := .recvbA) rfl, receiveCommandMeets rfl fun _ => rfl⟩

/-- Settles O18: RECVB.N is a receive that expects the unacknowledged one. -/
theorem receiveNoAckCommand : Obligations.ReceiveNoAckCommand :=
  ⟨decode_encode (i := .recvbN) rfl, receiveCommandMeets rfl fun _ => rfl⟩

/-- Settles O19: a stop reads no status, so its wait alone decides. -/
theorem stopCommand : Obligations.StopCommand :=
  ⟨decode_encode (i := .stop) rfl,
    fun s => ⟨fun hd => exec_of_ended (p := .stop) rfl (runPrim_stop_done (s := s.accept) hd),
      exec_of_timeout (p := .stop) rfl⟩⟩

end Sys2Proof.Proofs
end

section
/-! PROOFS. The guarded wait: what a list of polls decides, and a wait that no poll ever decides
(spec/41_timeout_guard.md R123 to R126, R199). -/

namespace Sys2Proof.Machine

/-! ### What a list of polls decides -/

section
variable {on : WaitOn} {timeout : Word16} {t0 : Millis} {polls before after : List Poll} {p : Poll}

/-- A poll that decides nothing: the predicate is false and the guard has not expired. -/
def QuietPoll (on : WaitOn) (timeout : Word16) (t0 : Millis) (q : Poll) : Prop :=
  on.holds q.flag = false ∧ expired timeout t0 q.now = false

/-- After quiet polls the first poll that is not quiet finds the predicate true. -/
def CompletesIn (on : WaitOn) (timeout : Word16) (t0 : Millis) (polls : List Poll) : Prop :=
  ∃ before p after, polls = before ++ p :: after ∧ (∀ q ∈ before, QuietPoll on timeout t0 q) ∧ on.holds p.flag = true

/-- After quiet polls the first poll that is not quiet finds the predicate false and the guard expired. -/
def ExpiresIn (on : WaitOn) (timeout : Word16) (t0 : Millis) (polls : List Poll) : Prop :=
  ∃ before p after, polls = before ++ p :: after ∧ (∀ q ∈ before, QuietPoll on timeout t0 q) ∧
    on.holds p.flag = false ∧ expired timeout t0 p.now = true

/-- Quiet polls are counted and then play no part. -/
theorem pollWait_append_of_quiet (h : ∀ q ∈ before, QuietPoll on timeout t0 q) (rest : List Poll) :
    pollWait on timeout t0 (before ++ rest) =
      ((pollWait on timeout t0 rest).1, before.length + (pollWait on timeout t0 rest).2) := by
  induction before with
  | nil => simp
  | cons q qs ih =>
    obtain ⟨hq, he⟩ := h q List.mem_cons_self
    have ih := ih fun r hr => h r (List.mem_cons_of_mem q hr)
    simp only [List.cons_append, pollWait, hq, he, ih, Bool.false_eq_true, if_false, List.length_cons]
    rw [Nat.add_right_comm]

theorem pollWait_of_quiet (h : ∀ q ∈ polls, QuietPoll on timeout t0 q) :
    pollWait on timeout t0 polls = (.undecided, polls.length) := by
  simpa [pollWait] using pollWait_append_of_quiet h []

theorem pollWait_of_completing_poll (h : ∀ q ∈ before, QuietPoll on timeout t0 q) (hp : on.holds p.flag = true) :
    pollWait on timeout t0 (before ++ p :: after) = (.done, before.length + 1) := by
  simp [pollWait_append_of_quiet h, pollWait, hp]

theorem pollWait_of_expired_poll (h : ∀ q ∈ before, QuietPoll on timeout t0 q) (hp : on.holds p.flag = false)
    (he : expired timeout t0 p.now = true) :
    pollWait on timeout t0 (before ++ p :: after) = (.timeout, before.length + 1) := by
  simp [pollWait_append_of_quiet h, pollWait, hp, he]

/-- The first poll that is not quiet, where there is one, either completes the wait or expires it. -/
theorem polls_cases (on : WaitOn) (timeout : Word16) (t0 : Millis) (polls : List Poll) :
    CompletesIn on timeout t0 polls ∨ ExpiresIn on timeout t0 polls ∨ ∀ q ∈ polls, QuietPoll on timeout t0 q := by
  induction polls with
  | nil => exact .inr (.inr nofun)
  | cons q qs ih =>
    cases hq : on.holds q.flag with
    | true => exact .inl ⟨[], q, qs, rfl, nofun, hq⟩
    | false =>
      cases he : expired timeout t0 q.now with
      | true => exact .inr (.inl ⟨[], q, qs, rfl, nofun, hq, he⟩)
      | false =>
        have quiet : QuietPoll on timeout t0 q := ⟨hq, he⟩
        rcases ih with ⟨b, p, a, rfl, hb, hp⟩ | ⟨b, p, a, rfl, hb, hp⟩ | h
        · exact .inl ⟨q :: b, p, a, rfl, List.forall_mem_cons.2 ⟨quiet, hb⟩, hp⟩
        · exact .inr (.inl ⟨q :: b, p, a, rfl, List.forall_mem_cons.2 ⟨quiet, hb⟩, hp⟩)
        · exact .inr (.inr (List.forall_mem_cons.2 ⟨quiet, h⟩))

/-- Completion, expiry and going on exclude one another and leave nothing out, so each is what its `WaitEnd` says. -/
theorem pollWait_iff (on : WaitOn) (timeout : Word16) (t0 : Millis) (polls : List Poll) :
    ((pollWait on timeout t0 polls).1 = .done ↔ CompletesIn on timeout t0 polls) ∧
      ((pollWait on timeout t0 polls).1 = .timeout ↔ ExpiresIn on timeout t0 polls) ∧
      ((pollWait on timeout t0 polls).1 = .undecided ↔ ∀ q ∈ polls, QuietPoll on timeout t0 q) := by
  have hdone : CompletesIn on timeout t0 polls → (pollWait on timeout t0 polls).1 = .done := by
    rintro ⟨b, p, a, rfl, hb, hp⟩
    rw [pollWait_of_completing_poll hb hp]
  have htimeout : ExpiresIn on timeout t0 polls → (pollWait on timeout t0 polls).1 = .timeout := by
    rintro ⟨b, p, a, rfl, hb, hp, he⟩
    rw [pollWait_of_expired_poll hb hp he]
  have hundecided : (∀ q ∈ polls, QuietPoll on timeout t0 q) → (pollWait on timeout t0 polls).1 = .undecided :=
    fun h => by rw [pollWait_of_quiet h]
  rcases polls_cases on timeout t0 polls with h | h | h
  · have e := hdone h
    refine ⟨⟨fun _ => h, hdone⟩, ⟨fun k => ?_, htimeout⟩, ⟨fun k => ?_, hundecided⟩⟩ <;> simp [e] at k
  · have e := htimeout h
    refine ⟨⟨fun k => ?_, hdone⟩, ⟨fun _ => h, htimeout⟩, ⟨fun k => ?_, hundecided⟩⟩ <;> simp [e] at k
  · have e := hundecided h
    refine ⟨⟨fun k => ?_, hdone⟩, ⟨fun k => ?_, htimeout⟩, ⟨fun _ => h, hundecided⟩⟩ <;> simp [e] at k

theorem expired_of_disabled (t0 now : Millis) : expired 0 t0 now = false := rfl

end

/-! ### A wait that goes on -/

section
variable {s t u : State} {on : WaitOn}

/-- The flag a primitive polls in this wait of its own (R124, R109). -/
def Phase.waitsOn (p : Prim) : Phase → WaitOn
  | .action => p.waitsOn
  | .nackStop => .stopDone

theorem guardedWait_of_undecided {polls : List Poll} (h : (pollWait on s.timeoutMs s.t0 polls).1 = .undecided) :
    s.guardedWait on polls =
      (.undecided, s.emit (List.replicate (pollWait on s.timeoutMs s.t0 polls).2 on.pollOp)) := by
  simp [guardedWait_eq, h]

theorem awaitPrim_of_undecided {p : Prim} {a : Answer}
    (h : (pollWait p.waitsOn s.timeoutMs s.t0 a.polls).1 = .undecided) :
    awaitPrim p a s =
      (.pending .action, s.emit (List.replicate (pollWait p.waitsOn s.timeoutMs s.t0 a.polls).2 p.waitsOn.pollOp)) := by
  have e := guardedWait_of_undecided h
  cases p <;> simp only [Prim.waitsOn] at e ⊢ <;> simp only [awaitPrim, awaitComplete, awaitStop, e]

/-- A resumed primitive whose wait goes on makes its polls, and that is all (R125). -/
theorem resumePrim_of_undecided {ph : Phase} {p : Prim}
    (h : (pollWait (ph.waitsOn p) s.timeoutMs s.t0 s.answer.polls).1 = .undecided) :
    resumePrim ph p s =
      (.pending ph, s.dropAnswer.emit
        (List.replicate (pollWait (ph.waitsOn p) s.timeoutMs s.t0 s.answer.polls).2 (ph.waitsOn p).pollOp)) := by
  cases ph with
  | action => exact awaitPrim_of_undecided (s := s.dropAnswer) h
  | nackStop => exact congrArg (dropStopOutcome s.st) (awaitPrim_of_undecided (p := .stop) (s := s.dropAnswer) h)

/-- The running command's wait goes on, and with it the command. -/
theorem Job.resume_of_undecided {j : Job} (h : (pollWait j.waitsOn s.timeoutMs s.t0 s.answer.polls).1 = .undecided) :
    j.resume s = (s.dropAnswer.emit
      (List.replicate (pollWait j.waitsOn s.timeoutMs s.t0 s.answer.polls).2 j.waitsOn.pollOp)).suspend j := by
  have waitsOn_eq : ∀ ph p rest, j.phase = ph → j.prims = p :: rest → j.waitsOn = ph.waitsOn p := by
    rintro ph p rest rfl hp
    unfold Job.waitsOn
    rw [hp]
    cases j.phase <;> cases p <;> rfl
  cases j with
  | primitive ph p =>
    rw [waitsOn_eq ph p _ rfl rfl] at h ⊢
    rw [Job.resume, resumePrim_of_undecided h, settlePrimitive]
  | transaction ph c rest =>
    rw [waitsOn_eq ph c.prim _ rfl rfl] at h ⊢
    rw [Job.resume, resumePrim_of_undecided h, settleCall]

/-- `t` is `s` with nothing but polls of this flag made, and answers used up. -/
def OnlyPolls (on : WaitOn) (s t : State) : Prop :=
  ∃ k env draws, t = { s with hbTrace := s.hbTrace ++ List.replicate k on.pollOp, env := env, draws := draws }

theorem OnlyPolls.refl (on : WaitOn) (s : State) : OnlyPolls on s s := ⟨0, s.env, s.draws, by simp⟩

theorem OnlyPolls.trans (h : OnlyPolls on s t) (k : OnlyPolls on t u) : OnlyPolls on s u := by
  obtain ⟨m, _, _, rfl⟩ := h
  obtain ⟨n, env, draws, rfl⟩ := k
  exact ⟨m + n, env, draws, by simp⟩

/-- A busy block's step out of reset, the running command's receives fitting the buffer. -/
theorem step_of_fits {j : Job} (hr : s.resetLine = false) (hb : s.busy = true) (hj : s.job = some j)
    (hf : j.fits s = true) : step s = .next (j.resume s) := by
  simp [step, hr, hb, continueCommand, hj, hf]

/-- R125: with the guard disabled, a step whose polls do not satisfy the wait leaves nothing but those polls. -/
theorem step_of_unanswered {j : Job} (hb : s.busy = true) (hj : s.job = some j) (hf : j.fits s = true)
    (hr : s.resetLine = false) (ht : s.timeoutMs = 0) (h : ∀ q ∈ s.answer.polls, j.waitsOn.holds q.flag = false) :
    ∃ t, step s = .next t ∧ OnlyPolls j.waitsOn s t ∧ SameEnv s.dropAnswer t := by
  have hquiet : ∀ q ∈ s.answer.polls, QuietPoll j.waitsOn s.timeoutMs s.t0 q := fun q hq =>
    ⟨h q hq, by rw [ht, expired_of_disabled]⟩
  have hu : (pollWait j.waitsOn s.timeoutMs s.t0 s.answer.polls).1 = .undecided := by rw [pollWait_of_quiet hquiet]
  refine ⟨j.resume s, step_of_fits hr hb hj hf, ?_, ?_⟩ <;> rw [Job.resume_of_undecided hu]
  · refine ⟨(pollWait j.waitsOn s.timeoutMs s.t0 s.answer.polls).2, s.dropAnswer.env, s.dropAnswer.draws, ?_⟩
    rw [hj]
    rfl
  · exact ⟨rfl, rfl⟩

/-- Any number of such steps leaves nothing but polls (R199). -/
theorem run_of_unanswered {n : Nat} {j : Job} (hb : s.busy = true) (hj : s.job = some j) (hf : j.fits s = true)
    (hr : s.resetLine = false) (ht : s.timeoutMs = 0)
    (h : ∀ a ∈ s.upcoming n, ∀ q ∈ a.polls, j.waitsOn.holds q.flag = false) :
    ∃ t, core.run n s = .next t ∧ OnlyPolls j.waitsOn s t := by
  induction n generalizing s with
  | zero => exact ⟨s, rfl, .refl _ s⟩
  | succ n ih =>
    obtain ⟨hnow, hlater⟩ := List.forall_mem_cons.1 h
    obtain ⟨t, hstep, hpolls, henv⟩ := step_of_unanswered hb hj hf hr ht hnow
    rw [← henv.upcoming n] at hlater
    obtain ⟨u, hrun, hu⟩ : ∃ u, core.run n t = .next u ∧ OnlyPolls j.waitsOn t u := by
      obtain ⟨_, _, _, rfl⟩ := hpolls
      exact ih hb hj hf hr ht hlater
    have e : core.step s = .next t := hstep
    exact ⟨u, by simp only [Host.Core.run, e, hrun], hpolls.trans hu⟩

end

end Sys2Proof.Machine

namespace Sys2Proof.Proofs

open Sys2Proof.Machine

/-- Settles O10: subtraction of 32-bit words is the difference modulo 2^32. -/
theorem expiryIsModular : Obligations.ExpiryIsModular := by
  refine ⟨fun timeout t0 now => ⟨?_, by simp [expired]⟩, fun start waited h => ?_⟩
  · have := t0.isLt
    rw [elapsed, BitVec.toNat_sub]
    congr 1
    omega
  · rw [elapsed, BitVec.toNat_sub, BitVec.toNat_ofNat, BitVec.toNat_ofNat]
    omega

/-- Settles O11: the guarded wait is `pollWait` with its polls issued, and quiet polls are only counted. -/
theorem guardedWaitDecides : Obligations.GuardedWaitDecides := by
  intro s on polls
  obtain ⟨hdone, htimeout, hundecided⟩ := pollWait_iff on s.timeoutMs s.t0 polls
  dsimp only
  rw [guardedWait_eq]
  refine ⟨hdone, htimeout, hundecided, fun hquiet => ?_, ?_⟩
  · rw [pollWait_of_quiet hquiet]
    rfl
  · rintro before p after rfl hquiet
    refine ⟨fun hp => ?_, fun hp he => ?_⟩
    · rw [pollWait_of_completing_poll hquiet hp]
      rfl
    · rw [pollWait_of_expired_poll hquiet hp he]
      rfl

/-- Settles O13: with the guard disabled every unsatisfied poll is quiet, so each step adds polls and nothing else. -/
theorem disabledGuardHangs : Obligations.DisabledGuardHangs := by
  intro n s j hb hj hf hr ht h
  obtain ⟨t, hrun, k, env, draws, rfl⟩ := run_of_unanswered hb hj hf hr ht h
  have hresets : (s.hbTrace ++ List.replicate k j.waitsOn.pollOp).count .forceReset = s.nReset := by
    rw [List.count_append, count_forceReset_polls, nReset_eq, Nat.add_zero]
  exact ⟨_, hrun, hb, rfl, rfl, rfl, hresets, rfl, rfl, rfl, rfl, rfl, rfl, rfl, rfl, ht⟩

end Sys2Proof.Proofs
end

section
/-! PROOFS. A command runs at most one lockup recovery, in the step it ends in (spec/41_timeout_guard.md R128,
spec/60_exceptions.md R196). -/

namespace Sys2Proof.Machine

section
variable {s t : State} {r : Progress × State}

/-- A primitive begun in `s` stands at `r`, with at most one recovery run, and none unless it failed. -/
structure RecoversIfFailed (s : State) (r : Progress × State) : Prop where
  le : s.nReset ≤ r.2.nReset ∧ r.2.nReset ≤ s.nReset + 1
  ok : r.1 = .ended .ok → r.2.nReset = s.nReset
  pending : ∀ ph, r.1 = .pending ph → r.2.nReset = s.nReset

theorem PrimSpec.recoversIfFailed {p : Prim} (h : PrimSpec p s r) : RecoversIfFailed s r := ⟨h.nReset_le, h.ok, h.pending⟩

theorem RecoversIfFailed.of {u : State} (h : RecoversIfFailed u r) (e : u.nReset = s.nReset) : RecoversIfFailed s r :=
  ⟨e ▸ h.le, fun k => (h.ok k).trans e, fun ph k => (h.pending ph k).trans e⟩

/-- The NACK path never ends with `OK`, and goes on only where its stop does. -/
theorem RecoversIfFailed.dropStopOutcome (h : RecoversIfFailed s r) (x : Byte) :
    RecoversIfFailed s (dropStopOutcome x r) := by
  obtain ⟨o | ph, t⟩ := r
  · exact ⟨h.le, nofun, nofun⟩
  · exact ⟨h.le, nofun, fun _ _ => h.pending ph rfl⟩

/-- Unlike the outcome of `resumePrim_spec`, this needs nothing of the status in `st`. -/
theorem resumePrim_recoversIfFailed (ph : Phase) (p : Prim) (s : State) : RecoversIfFailed s (resumePrim ph p s) := by
  cases ph with
  | action => exact (awaitPrim_spec p _ _).recoversIfFailed.of (dropAnswer_nReset s)
  | nackStop => exact ((awaitStop_spec _ _).recoversIfFailed.of (dropAnswer_nReset s)).dropStopOutcome _

/-- The step from `s` to `t` ran at most one recovery, and none if it left a command running. -/
def RecoversAtEnd (s t : State) : Prop :=
  s.nReset ≤ t.nReset ∧ t.nReset ≤ s.nReset + 1 ∧ (t.busy = true → t.nReset = s.nReset)

theorem RecoversAtEnd.of_nReset_eq (h : t.nReset = s.nReset) : RecoversAtEnd s t :=
  ⟨h.ge, h.le.trans (Nat.le_succ _), fun _ => h⟩

theorem RecoversIfFailed.respond (h : RecoversIfFailed s r) (x : Byte) (d : Word16) :
    RecoversAtEnd s (r.2.respond x d) := ⟨h.le.1, h.le.2, nofun⟩

theorem RecoversIfFailed.settlePrimitive (h : RecoversIfFailed s r) (p : Prim) :
    RecoversAtEnd s (settlePrimitive p r) := by
  rcases settlePrimitive_cases p r with ⟨x, d, e⟩ | ⟨ph, hph, e⟩ <;> rw [e]
  · exact h.respond x d
  · exact .of_nReset_eq (h.pending ph hph)

@[simp] theorem Call.advance_nReset (c : Call) (s : State) : (c.advance s).nReset = s.nReset := by
  unfold Call.advance
  cases c.prim <;> rfl

theorem recoversAtEnd_rule (s : State) :
    StageRule (fun _ t => t.nReset = s.nReset) (fun _ _ r => RecoversIfFailed s r) (RecoversAtEnd s) where
  run {_ _ _} h := (runPrim_spec _ _).recoversIfFailed.of h
  ok h := (Call.advance_nReset _ _).trans (h.ok rfl)
  fails _ h := ⟨h.le.1, h.le.2, nofun⟩
  goesOn h := .of_nReset_eq (h.pending _ rfl)
  finish h := .of_nReset_eq h

theorem exec_recoversAtEnd {i : Instr} (h : exec i s = .next t) : RecoversAtEnd s t := by
  rcases command_kinds i s.params.capacity with ⟨p, hp⟩ | hi | hl
  · rw [exec_of_primOf hp] at h
    obtain rfl := Host.Outcome.next.inj h
    exact ((runPrim_spec p s.accept).recoversIfFailed.of rfl).settlePrimitive p
  · rw [exec_of_transaction hi] at h
    obtain rfl := Host.Outcome.next.inj h
    refine (recoversAtEnd_rule s).runCalls ?_
    unfold State.acceptFor
    split <;> rfl
  · obtain ⟨d, rfl | ⟨v, -, rfl⟩ | ⟨-, -, rfl⟩⟩ := exec_local_next hl h <;> exact .of_nReset_eq rfl

theorem resume_recoversAtEnd (j : Job) (s : State) : RecoversAtEnd s (j.resume s) := by
  cases j with
  | primitive ph p => exact (resumePrim_recoversIfFailed ph p s).settlePrimitive p
  | transaction ph c rest => exact (recoversAtEnd_rule s).settle (resumePrim_recoversIfFailed ph c.prim s)

end

end Sys2Proof.Machine

namespace Sys2Proof.Proofs

open Sys2Proof.Machine

/-- Settles O39: every recovery ends the primitive that runs it with a failure, and the command with it. -/
theorem atMostOneRecovery : Obligations.AtMostOneRecovery := by
  refine ⟨fun i s t h => exec_recoversAtEnd h, fun s t hb hr h => ?_⟩
  obtain ⟨j, hj⟩ := exists_job_of_step hr hb h
  obtain ⟨-, rfl⟩ := step_of_busy hr hb hj h
  exact resume_recoversAtEnd j s

end Sys2Proof.Proofs
end

section
/-! PROOFS. A wait that the answer of a step leaves undecided: the state a command is left in, and that where the step
ends inside the wait cannot be observed (spec/41_timeout_guard.md R124, R125, spec/40_primitives.md R109). -/

namespace Sys2Proof.Machine

/-! ### The NACK path, its stop decided or not -/

section
variable {s : State} {p : Prim} {x : Byte}

theorem ne_stop_of_judge_nack {c : StatusCodes} (h : judge c p x = .nack) : p ≠ .stop := by
  rintro rfl
  simp [judge, successSet, nackSet] at h

/-- A status in the NACK set is followed by a whole stop (R109). -/
theorem runPrim_of_nack (hw : s.answer.primWait s.timeoutMs p = .done)
    (hj : judge s.params.codes p s.answer.status = .nack) :
    runPrim p s = dropStopOutcome s.answer.status (runPrim .stop (s.statusRead p)) := by
  have e : judge (s.statusRead p).params.codes p (s.statusRead p).st = .nack := hj
  rw [runPrim_done (ne_stop_of_judge_nack hj) hw]
  change decideStatus p s.answer (s.statusRead p) = _
  rw [decideStatus, e]
  rfl

/-- The stop of the NACK path goes on, and with it the primitive. -/
theorem runPrim_of_nack_undecided (hw : s.answer.primWait s.timeoutMs p = .done)
    (hj : judge s.params.codes p s.answer.status = .nack)
    (hs : (s.statusRead p).answer.waitEnd .stopDone s.timeoutMs = .undecided) :
    runPrim p s = (.pending .nackStop, (s.statusRead p).polled .issueStop .stopDone) := by
  rw [runPrim_of_nack hw hj, runPrim_undecided (p := .stop) (s := s.statusRead p) hs]
  rfl

/-- The command of a primitive that goes on (R125). -/
theorem exec_of_pending {i : Instr} (hi : primOf i = some p) {ph : Phase} {t : State}
    (h : runPrim p s.accept = (.pending ph, t)) : exec i s = .next (t.suspend (.primitive ph p)) := by
  rw [exec_of_primOf hi, runPrimitiveCommand, h]
  rfl

end

end Sys2Proof.Machine

namespace Sys2Proof.Proofs

open Sys2Proof.Machine

/-- Settles O52: the primitive goes on in the wait the polls left undecided, and the command with it. -/
theorem undecidedWaitSuspends : Obligations.UndecidedWaitSuspends := by
  intro i q s hiq
  have hi : primOf i = some q := by
    simp only [List.mem_cons, List.not_mem_nil, or_false, Prod.mk.injEq] at hiq
    rcases hiq with (⟨rfl, rfl⟩ | ⟨rfl, rfl⟩ | ⟨rfl, rfl⟩ | ⟨rfl, rfl⟩) | ⟨b, rfl, rfl⟩ | ⟨b, rfl, rfl⟩ <;> rfl
  have hwait : (if q = .stop then .stopDone else .complete) = q.waitsOn := by cases q <;> rfl
  dsimp only
  rw [hwait]
  refine ⟨fun hw => exec_of_pending hi (runPrim_undecided (s := s.accept) hw), fun hw hj hs => ?_⟩
  have hcomplete : q.waitsOn = .complete := by
    rw [← hwait, if_neg (ne_stop_of_judge_nack hj)]
  rw [hcomplete] at hs ⊢
  exact exec_of_pending hi (runPrim_of_nack_undecided (s := s.accept) hw hj hs)

end Sys2Proof.Proofs
end

section
/-! PROOFS. Where a step ends inside a wait cannot be observed (spec/41_timeout_guard.md R124, log 7): the command left
waiting, gone on with, and the same command with the polls of both answers in one. -/

namespace Sys2Proof.Machine

open Sys2Proof.Claim

/-! ### Two answers to one wait -/

section
variable {s : State} {p : Prim} {a b : Answer}

theorem pollWait_append_of_undecided {on : WaitOn} {timeout : Word16} {t0 : Millis} {polls : List Poll}
    (h : (pollWait on timeout t0 polls).1 = .undecided) (more : List Poll) :
    pollWait on timeout t0 (polls ++ more) =
      ((pollWait on timeout t0 more).1, (pollWait on timeout t0 polls).2 + (pollWait on timeout t0 more).2) := by
  have hquiet := (pollWait_iff on timeout t0 polls).2.2.1 h
  rw [pollWait_append_of_quiet hquiet, pollWait_of_quiet hquiet]

/-- A wait that goes on with more polls is the wait over all of them. -/
theorem guardedWait_append_of_undecided {on : WaitOn} {polls : List Poll}
    (h : (pollWait on s.timeoutMs s.t0 polls).1 = .undecided) (more : List Poll) :
    (s.emit (List.replicate (pollWait on s.timeoutMs s.t0 polls).2 on.pollOp)).guardedWait on more =
      s.guardedWait on (polls ++ more) := by
  rw [guardedWait_eq, guardedWait_eq, pollWait_append_of_undecided h]
  simp only [State.emit, List.append_assoc, List.replicate_append_replicate]

/-- The status decision takes nothing of the answer but the byte. -/
theorem decideStatus_joinAnswers (p : Prim) (a b : Answer) (s : State) :
    decideStatus p (joinAnswers a b) s = decideStatus p b s := by
  cases p <;> rfl

/-- A primitive whose wait the polls of `a` leave undecided goes on with `b` as if both had stood in one answer. -/
theorem awaitPrim_joinAnswers (h : (pollWait p.waitsOn s.timeoutMs s.t0 a.polls).1 = .undecided) :
    awaitPrim p b (s.emit (List.replicate (pollWait p.waitsOn s.timeoutMs s.t0 a.polls).2 p.waitsOn.pollOp)) =
      awaitPrim p (joinAnswers a b) s := by
  have e := guardedWait_append_of_undecided h b.polls
  cases p <;> simp only [Prim.waitsOn] at e <;>
    simp only [awaitPrim, awaitComplete, awaitStop, Prim.waitsOn, e, decideStatus_joinAnswers] <;> rfl

end

/-! ### A primitive cut inside one of its waits -/

/-- The same state, with these answers settled. -/
def State.withEnv (s : State) (env : List Answer) : State := { s with env := env }

section
variable {s : State} {p : Prim} {n a b : Answer} {rest e e' : List Answer}

/-- Answered by `e` the primitive is left waiting, and the step that goes on leaves what it leaves answered by `e'`. -/
def PrimCut (p : Prim) (s : State) (e e' : List Answer) : Prop :=
  ∃ ph t, runPrim p (s.withEnv e) = (.pending ph, t) ∧ resumePrim ph p t = runPrim p (s.withEnv e')

/-- The state `polled` is the one its polls leave. -/
theorem State.polled_eq_emit (s : State) (op : HbOp) (on : WaitOn) :
    s.polled op on = (s.dropAnswer.issue s.answer.now0 op).emit
      (List.replicate (s.answer.pollCount on s.timeoutMs) on.pollOp) := by
  simp [State.polled, State.issue, State.emit]

theorem primCut_of_undecided (h : a.primWait s.timeoutMs p = .undecided) :
    PrimCut p s (a :: b :: rest) (joinAnswers a b :: rest) := by
  refine ⟨.action, _, runPrim_undecided h, ?_⟩
  rw [primWait_eq] at h
  rw [State.polled_eq_emit]
  exact awaitPrim_joinAnswers (s := (s.withEnv rest).issue a.now0 p.busOp) h

/-- The NACK path's stop is itself a primitive, so a cut in it is a cut of that primitive. -/
theorem primCut_of_nackStop_undecided (hw : n.primWait s.timeoutMs p = .done)
    (hj : judge s.params.codes p n.status = .nack) (h : a.waitEnd .stopDone s.timeoutMs = .undecided) :
    PrimCut p s (n :: a :: b :: rest) (n :: joinAnswers a b :: rest) := by
  have hnack : ∀ env, runPrim p (s.withEnv (n :: env)) =
      dropStopOutcome n.status (runPrim .stop (((s.withEnv [n]).statusRead p).withEnv env)) :=
    fun env => runPrim_of_nack (s := s.withEnv (n :: env)) hw hj
  obtain ⟨ph, t, hrun, hresume⟩ : PrimCut .stop ((s.withEnv [n]).statusRead p) (a :: b :: rest) (joinAnswers a b :: rest) :=
    primCut_of_undecided h
  refine ⟨.nackStop, t, by rw [hnack, hrun, dropStopOutcome], ?_⟩
  rw [hnack, ← hresume]
  have hst : t.st = n.status := by
    have := (runPrim_spec .stop (((s.withEnv [n]).statusRead p).withEnv (a :: b :: rest))).stop_st rfl
    rw [hrun] at this
    exact this
  have hph : ph = .action := by
    rw [runPrim_undecided (p := .stop) (s := ((s.withEnv [n]).statusRead p).withEnv (a :: b :: rest)) h] at hrun
    cases hrun
    rfl
  rw [← hst, hph]
  rfl

end

/-! ### The command left in progress is not looked at -/

/-- Where a primitive stands, with another command in progress. -/
def suspended (j : Job) (r : Progress × State) : Progress × State := (r.1, r.2.suspend j)

section
variable (s : State) (j : Job) (p : Prim) (a : Answer)

theorem guardedWait_suspend (on : WaitOn) (polls : List Poll) :
    (s.suspend j).guardedWait on polls = ((s.guardedWait on polls).1, (s.guardedWait on polls).2.suspend j) := by
  simp only [State.guardedWait, State.suspend_timeoutMs, State.suspend_t0]
  cases (pollWait on s.timeoutMs s.t0 polls).1 <;> rfl

theorem awaitStop_suspend : awaitStop a (s.suspend j) = suspended j (awaitStop a s) := by
  unfold awaitStop
  rw [guardedWait_suspend]
  obtain ⟨_ | _ | _, t⟩ := s.guardedWait .stopDone a.polls <;> rfl

theorem dropStopOutcome_suspended (x : Byte) (r : Progress × State) :
    dropStopOutcome x (suspended j r) = suspended j (dropStopOutcome x r) := by
  obtain ⟨_ | _, t⟩ := r <;> rfl

theorem decideStatus_suspend : decideStatus p a (s.suspend j) = suspended j (decideStatus p a s) := by
  unfold decideStatus
  rw [State.suspend_params, State.suspend_st]
  cases judge s.params.codes p s.st with
  | success => cases p <;> rfl
  | nack =>
    dsimp only
    rw [← dropStopOutcome_suspended]
    exact congrArg _ (awaitStop_suspend (s.dropAnswer.issue s.answer.now0 .issueStop) j s.answer)
  | other => rfl

theorem awaitComplete_suspend : awaitComplete p a (s.suspend j) = suspended j (awaitComplete p a s) := by
  unfold awaitComplete
  rw [guardedWait_suspend]
  obtain ⟨_ | _ | _, t⟩ := s.guardedWait .complete a.polls
  · exact decideStatus_suspend (t.latchStatus a.status) j p a
  · rfl
  · rfl

theorem awaitPrim_suspend : awaitPrim p a (s.suspend j) = suspended j (awaitPrim p a s) := by
  cases p with
  | stop => exact awaitStop_suspend s j a
  | start => exact awaitComplete_suspend s j _ a
  | sendA b => exact awaitComplete_suspend s j _ a
  | sendB b => exact awaitComplete_suspend s j _ a
  | recvB ack => exact awaitComplete_suspend s j _ a

theorem runPrim_suspend : runPrim p (s.suspend j) = suspended j (runPrim p s) :=
  awaitPrim_suspend (s.dropAnswer.issue s.answer.now0 p.busOp) j p s.answer

theorem resumePrim_suspend (ph : Phase) : resumePrim ph p (s.suspend j) = suspended j (resumePrim ph p s) := by
  cases ph with
  | action => exact awaitPrim_suspend s.dropAnswer j p s.answer
  | nackStop =>
    exact (congrArg (dropStopOutcome s.st) (awaitStop_suspend s.dropAnswer j s.answer)).trans
      (dropStopOutcome_suspended j _ _)

theorem settleCall_suspended {rest : State → State} (hrest : ∀ t, rest (t.suspend j) = rest t) (c : Call)
    (cs : List Call) (r : Progress × State) : settleCall rest c cs (suspended j r) = settleCall rest c cs r := by
  have hadvance : ∀ t, c.advance (t.suspend j) = (c.advance t).suspend j := fun t => by
    unfold Call.advance
    cases c.prim <;> rfl
  obtain ⟨o | ph, t⟩ := r
  · cases o with
    | ok => exact (congrArg rest (hadvance t)).trans (hrest _)
    | _ => rfl
  · rfl

theorem runCalls_suspend (cs : List Call) : runCalls cs (s.suspend j) = runCalls cs s := by
  induction cs generalizing s with
  | nil => rfl
  | cons c cs ih =>
    have e := runPrim_suspend (s.enterStage c.stage) j c.prim
    exact (congrArg _ e).trans (settleCall_suspended j ih c cs _)

theorem settlePrimitive_suspended (r : Progress × State) :
    settlePrimitive p (suspended j r) = settlePrimitive p r := by
  obtain ⟨o | ph, t⟩ := r
  · cases o <;> cases p <;> rfl
  · rfl

end

/-! ### A command cut inside one of its primitives -/

/-- `settle` is what a command makes of its primitive `p`: it goes on as `job`, and is gone on with by `settle`. -/
structure SettlesAs (p : Prim) (settle : Progress × State → State) (job : Phase → Job) : Prop where
  pending : ∀ ph t, settle (.pending ph, t) = t.suspend (job ph)
  resume : ∀ ph t, (job ph).resume t = settle (resumePrim ph p t)
  forgets : ∀ j r, settle (suspended j r) = settle r

theorem settlesAs_primitive (p : Prim) : SettlesAs p (settlePrimitive p) (fun ph => .primitive ph p) :=
  ⟨fun _ _ => rfl, fun _ _ => rfl, fun j r => settlePrimitive_suspended j p r⟩

theorem settlesAs_transaction (c : Call) (cs : List Call) :
    SettlesAs c.prim (settleCall (runCalls cs) c cs) (fun ph => .transaction ph c cs) :=
  ⟨fun _ _ => rfl, fun _ _ => rfl, fun j => settleCall_suspended j (fun t => runCalls_suspend t j cs) c cs⟩

section
variable {s t : State} {p : Prim} {e e' : List Answer}

/-- A command cut in its primitive is left with a command in progress that ends as the uncut one. -/
theorem SettlesAs.cut {settle : Progress × State → State} {job : Phase → Job} (h : SettlesAs p settle job)
    (hc : PrimCut p s e e') :
    ∃ j t, settle (runPrim p (s.withEnv e)) = t ∧ t.job = some j ∧ j.resume t = settle (runPrim p (s.withEnv e')) := by
  obtain ⟨ph, t, hrun, hresume⟩ := hc
  refine ⟨job ph, t.suspend (job ph), by rw [hrun, h.pending], rfl, ?_⟩
  rw [h.resume, resumePrim_suspend, h.forgets, hresume]

end

/-! ### The receives of a command in progress fit the buffer -/

/-- The receives among the stages still to run fit the buffer (R64 (a)). -/
def ReceivesFit (cs : List Call) (s : State) : Prop :=
  receivesIn cs = 0 ∨ s.totalNat + receivesIn cs ≤ s.params.capacity

theorem ReceivesFit.advance {c : Call} {cs : List Call} {s : State} (h : ReceivesFit (c :: cs) s) :
    ReceivesFit cs (c.advance s) := by
  unfold ReceivesFit at h ⊢
  rw [receivesIn_cons] at h
  unfold Call.advance
  cases hp : c.prim with
  | recvB ack =>
    have hc : c.isReceive = true := by simp [Call.isReceive, hp]
    simp only [hc, if_true] at h
    have hroom : s.totalNat < s.params.capacity := by omega
    refine .inr ?_
    rw [State.advanceIdx_totalNat, State.appendRx_totalNat_of_lt_capacity hroom]
    change _ ≤ s.params.capacity
    omega
  | _ =>
    have hc : c.isReceive = false := by simp [Call.isReceive, hp]
    simpa [hc] using h

theorem receivesFit_rule : StageRule ReceivesFit (fun c cs r => ReceivesFit (c :: cs) r.2)
    (fun t => ∀ j, t.job = some j → j.fits t = true) where
  run {c cs s} h := by
    have f := runPrim_frame c.prim (s.enterStage c.stage)
    unfold ReceivesFit
    rw [f.total, f.params]
    exact h
  ok h := h.advance
  fails _ _ := nofun
  goesOn {c cs ph t} h := by
    rintro _ ⟨⟩
    change (decide (receivesIn (c :: cs) = 0) ||
      decide (t.totalNat + receivesIn (c :: cs) ≤ t.params.capacity)) = true
    simpa [ReceivesFit] using h
  finish _ := nofun

/-- The command a step leaves in progress fits the buffer, whatever the buffer held before. -/
theorem exec_fits {i : Instr} {s t : State} (h : exec i s = .next t) : ∀ j, t.job = some j → j.fits t = true := by
  rcases command_kinds i s.params.capacity with ⟨p, hp⟩ | hi | hl
  · rw [exec_of_primOf hp] at h
    obtain rfl := Host.Outcome.next.inj h
    unfold runPrimitiveCommand
    rcases settlePrimitive_cases p (runPrim p s.accept) with ⟨x, d, e⟩ | ⟨ph, -, e⟩ <;> rw [e]
    · exact nofun
    · rintro _ ⟨⟩
      rfl
  · rw [exec_of_transaction hi] at h
    obtain rfl := Host.Outcome.next.inj h
    refine receivesFit_rule.runCalls ?_
    cases hr : isReadType i
    · exact .inl (receivesIn_of_write hi hr)
    · refine .inr ?_
      rw [State.acceptFor_of_read hr]
      change s.clearBuffer.totalNat + _ ≤ s.params.capacity
      rw [State.clearBuffer_totalNat, Nat.zero_add]
      exact receivesIn_transactionCalls_le hi
  · obtain ⟨d, rfl | ⟨v, -, rfl⟩ | ⟨-, -, rfl⟩⟩ := exec_local_next hl h <;> exact nofun

/-! ### The primitive after the granted ones -/

section
variable {i : Instr} {s t : State} {p : Prim} {lead : List Answer}

theorem State.upcoming_withEnv (s : State) (lead rest : List Answer) :
    (s.withEnv (lead ++ rest)).upcoming lead.length = lead := by
  induction lead with
  | nil => rfl
  | cons a as ih => exact congrArg (a :: ·) ih

/-- Granted stages take the answers for them and hand on the others. -/
theorem afterCalls_withEnv {cs : List Call} (h : cs.length = lead.length) (s : State) (rest : List Answer) :
    afterCalls cs (s.withEnv (lead ++ rest)) = (afterCalls cs (s.withEnv lead)).withEnv rest := by
  have hgranted : ∀ (c : Call) (s : State) a env,
      grantedCall c (s.withEnv (a :: env)) = (grantedCall c (s.withEnv [a])).withEnv env := fun c s a env => by
    unfold grantedCall Call.advance
    cases c.prim <;> rfl
  induction cs generalizing s lead with
  | nil =>
    obtain rfl := List.eq_nil_of_length_eq_zero h.symm
    rfl
  | cons c cs ih =>
    cases lead with
    | nil => cases h
    | cons a as =>
      simp only [List.cons_append, afterCalls]
      rw [hgranted, hgranted c s a as, ih (Nat.succ.inj h)]

theorem commandPrims_of_primOf {c : Nat} (h : primOf i = some p) : commandPrims c i = [p] := by
  cases i <;> cases h <;> rfl

theorem commandPrims_of_transaction {c : Nat} (h : transactionCalls c i ≠ []) :
    commandPrims c i = (transactionCalls c i).map Call.prim := by
  cases i with
  | writeP8 a p d => rfl
  | writeP16 a p d => rfl
  | read a n => rfl
  | wrrdP8 a p n => rfl
  | wrrdP16 a p n => rfl
  | _ => exact absurd rfl h

theorem commandPrims_of_isLocal {c : Nat} (h : isLocal i = true) : commandPrims c i = [] := by
  cases i <;> cases h <;> rfl

/-- A transaction answered by `lead` for its first stages makes the primitive of the next from a state in which the
other answers are still to come. -/
theorem runCalls_of_granted {cs : List Call} (hlen : cs.length = lead.length)
    (hg : grantsAll s.params.codes s.timeoutMs (cs.map Call.prim) lead = true) (c : Call) (rest : List Call)
    (env : List Answer) :
    runCalls (cs ++ c :: rest) (s.withEnv (lead ++ env)) =
      settleCall (runCalls rest) c rest
        (runPrim c.prim (((afterCalls cs (s.withEnv lead)).enterStage c.stage).withEnv env)) := by
  rw [runCalls_granted (s := s.withEnv (lead ++ env)), afterCalls_withEnv hlen]
  · rfl
  · rw [hlen, State.upcoming_withEnv]
    exact hg

/-- The state in which a transaction begins its first stage. -/
def State.atFirstStage (s : State) (i : Instr) : State := (s.acceptFor i).leaveStages

theorem State.atFirstStage_params (s : State) (i : Instr) : (s.atFirstStage i).params = s.params := by
  unfold State.atFirstStage State.acceptFor
  split <;> rfl

theorem State.atFirstStage_timeoutMs (s : State) (i : Instr) : (s.atFirstStage i).timeoutMs = s.timeoutMs := by
  unfold State.atFirstStage State.acceptFor
  split <;> rfl

theorem exec_withEnv_of_transaction (hi : transactionCalls s.params.capacity i ≠ []) (env : List Answer) :
    exec i (s.withEnv env) = .next (runCalls (transactionCalls s.params.capacity i) ((s.atFirstStage i).withEnv env)) := by
  have e : ((s.withEnv env).acceptFor i).leaveStages = (s.atFirstStage i).withEnv env := by
    unfold State.atFirstStage State.acceptFor
    split <;> rfl
  rw [exec_of_transaction hi, runTransaction, e]
  rfl

/-- A command whose first primitives are granted makes the next one from a state in which the other answers are still to
come. -/
theorem exec_of_granted
    (hg : grantsAll s.params.codes s.timeoutMs ((commandPrims s.params.capacity i).take lead.length) lead = true)
    (hp : (commandPrims s.params.capacity i)[lead.length]? = some p) :
    ∃ (settle : Progress × State → State) (job : Phase → Job) (u : State), SettlesAs p settle job ∧
      u.params = s.params ∧ u.timeoutMs = s.timeoutMs ∧
        ∀ env, exec i (s.withEnv (lead ++ env)) = .next (settle (runPrim p (u.withEnv env))) := by
  rcases command_kinds i s.params.capacity with ⟨q, hq⟩ | hi | hl
  · rw [commandPrims_of_primOf hq] at hp
    obtain ⟨hlt, rfl⟩ := List.getElem?_eq_some_iff.1 hp
    obtain rfl := List.eq_nil_of_length_eq_zero (Nat.lt_one_iff.1 hlt)
    exact ⟨_, _, s.accept, settlesAs_primitive q, rfl, rfl, fun env => exec_of_primOf hq _⟩
  · rw [commandPrims_of_transaction hi, ← List.map_take] at hg
    rw [commandPrims_of_transaction hi, List.getElem?_map] at hp
    have hexec := exec_withEnv_of_transaction hi
    generalize transactionCalls s.params.capacity i = cs at hg hp hexec
    obtain ⟨c, hc, rfl⟩ := Option.map_eq_some_iff.1 hp
    obtain ⟨hlt, rfl⟩ := List.getElem?_eq_some_iff.1 hc
    have hsplit : cs = cs.take lead.length ++ cs[lead.length] :: cs.drop (lead.length + 1) := by
      rw [← List.drop_eq_getElem_cons, List.take_append_drop]
    rw [← s.atFirstStage_params i, ← s.atFirstStage_timeoutMs i] at hg
    have f := afterCalls_frame (cs.take lead.length) ((s.atFirstStage i).withEnv lead)
    refine ⟨_, _, (afterCalls (cs.take lead.length) ((s.atFirstStage i).withEnv lead)).enterStage cs[lead.length].stage,
      settlesAs_transaction _ (cs.drop (lead.length + 1)), f.params.trans (s.atFirstStage_params i),
      f.timeoutMs.trans (s.atFirstStage_timeoutMs i), fun env => ?_⟩
    rw [hexec, ← runCalls_of_granted (List.length_take_of_le hlt.le) hg, ← hsplit]
  · rw [commandPrims_of_isLocal hl] at hp
    cases hp

theorem exec_resetLine (h : exec i s = .next t) : t.resetLine = s.resetLine := by
  rcases command_kinds i s.params.capacity with ⟨p, hp⟩ | hi | hl
  · rw [exec_of_primOf hp] at h
    obtain rfl := Host.Outcome.next.inj h
    exact (runPrimitiveCommand_frame p s).resetLine
  · exact (exec_transaction_frame hi h).resetLine
  · obtain ⟨d, rfl | ⟨v, -, rfl⟩ | ⟨-, -, rfl⟩⟩ := exec_local_next hl h <;> rfl

/-- A command left in progress goes on in the next step, out of reset; until then it has not responded. -/
theorem step_of_exec {j : Job} (hr : s.resetLine = false) (h : exec i s = .next t) (hj : t.job = some j) :
    t.busy = true ∧ t.responses = s.responses ∧ step t = .next (j.resume t) := by
  rcases exec_respondsOnce h with ⟨-, hnone, -⟩ | ⟨hbusy, -, hresp⟩
  · rw [hnone] at hj
    cases hj
  · exact ⟨hbusy, hresp, step_of_fits ((exec_resetLine h).trans hr) hbusy hj (exec_fits h j hj)⟩

end

end Sys2Proof.Machine

namespace Sys2Proof.Proofs

open Sys2Proof.Machine

/-- Settles O12: both cuts are cuts of one primitive, the one after those granted, and neither the answers already used
nor the command noted as in progress decide anything after it. -/
theorem cutOfWaitUnobservable : Obligations.CutOfWaitUnobservable := by
  intro i s lead rest a b p hr hg hp
  obtain ⟨settle, job, u, hsettle, hparams, htimeout, hexec⟩ := exec_of_granted hg hp
  have hcut : ∀ e e', PrimCut p u e e' → ∃ t, exec i (s.withEnv (lead ++ e)) = .next t ∧ t.busy = true ∧
      t.responses = s.responses ∧ step t = exec i (s.withEnv (lead ++ e')) := by
    intro e e' hc
    obtain ⟨j, t, ht, hj, hresume⟩ := hsettle.cut hc
    have hnext : exec i (s.withEnv (lead ++ e)) = .next t := by rw [hexec, ht]
    obtain ⟨hbusy, hresp, hstep⟩ := step_of_exec (s := s.withEnv (lead ++ e)) hr hnext hj
    exact ⟨t, hnext, hbusy, hresp, by rw [hstep, hresume, hexec]⟩
  rw [← htimeout, ← hparams]
  refine ⟨fun hw => hcut _ _ (primCut_of_undecided hw), fun n hn hnack hw => ?_⟩
  simp only [Claim.CutAfter, List.append_assoc, List.singleton_append]
  exact hcut _ _ (primCut_of_nackStop_undecided hn hnack hw)

end Sys2Proof.Proofs
end

section
/-! PROOFS. What a run of granted stages leaves, in full: the reads in its trace, the bytes it received, and the answers
still to come (spec/42_write.md R142, spec/43_read.md R152). -/

namespace Sys2Proof.Machine

/-! ### The trace with its reads -/

@[simp] theorem fullTrace_append (a b : List HbOp) : fullTrace (a ++ b) = fullTrace a ++ fullTrace b := by
  simp [fullTrace]

@[simp] theorem fullTrace_cons (o : HbOp) (l : List HbOp) :
    fullTrace (o :: l) = if o.isPoll = true then fullTrace l else o :: fullTrace l := by
  cases h : o.isPoll <;> simp [fullTrace, h]

@[simp] theorem fullTrace_nil : fullTrace [] = [] := rfl

@[simp] theorem fullTrace_polls (n : Nat) (on : WaitOn) : fullTrace (List.replicate n on.pollOp) = [] := by
  cases on <;> simp [fullTrace, WaitOn.pollOp, HbOp.isPoll]

/-- What a granted primitive adds to the trace, its polls left out: a stop reads no status, only a receive a byte (R101
to R106). -/
def Prim.grantedOps : Prim → List HbOp
  | .stop => [.issueStop]
  | .recvB ack => [.receive ack, .status, .rxData]
  | p => [p.busOp, .status]

theorem grantedState_fullTrace (p : Prim) (s : State) :
    fullTrace (grantedState p s).hbTrace = fullTrace s.hbTrace ++ p.grantedOps := by
  cases p <;> simp [grantedState, State.succeed, Prim.grantedOps, Prim.busOp, HbOp.isPoll]

theorem afterCalls_fullTrace (cs : List Call) (s : State) :
    fullTrace (afterCalls cs s).hbTrace = fullTrace s.hbTrace ++ cs.flatMap fun c => c.prim.grantedOps := by
  induction cs generalizing s with
  | nil => simp [afterCalls]
  | cons c cs ih => simp [afterCalls, ih, grantedCall_hbTrace, grantedState_fullTrace]

/-! ### The bytes received -/

/-- A run of granted stages stores the bytes delivered to its receives after those already there, in order. -/
theorem afterCalls_received {cs : List Call} {s : State} (hb : s.totalNat + receivesIn cs < 2 ^ s.params.idxw)
    (he : s.availableNat = s.totalNat) {j : Nat} (hj : j < receivesIn cs) :
    Memory.read? (afterCalls cs s).buf (s.totalNat + j) = (receivedBytes cs (s.upcoming cs.length))[j]? := by
  induction cs generalizing s j with
  | nil => cases hj
  | cons c cs ih =>
    have hp := (grantedCall_frame c s).params
    have hup : s.dropAnswer.upcoming cs.length = (grantedCall c s).upcoming cs.length :=
      ((grantedCall_env c s).upcoming _).symm
    rw [receivesIn_cons] at hb hj
    simp only [afterCalls, List.length_cons, State.upcoming, receivedBytes, hup]
    cases hc : c.isReceive with
    | false =>
      obtain ⟨ht, ha, -, -⟩ := grantedCall_of_not_receive hc s
      rw [hc] at hb hj
      have k := ih (s := grantedCall c s) (by rw [ht, hp]; exact hb) (by rw [ht, ha, he]) hj
      rwa [ht] at k
    | true =>
      obtain ⟨ht, ha, hbuf, -⟩ := grantedCall_of_receive hc s
      simp only [hc, if_true] at hb hj ⊢
      have hone : (s.totalNat + 1) % 2 ^ s.params.idxw = s.totalNat + 1 := Nat.mod_eq_of_lt (by omega)
      rw [he, hone] at ha
      rw [hone] at ht
      have hroom : (grantedCall c s).totalNat + receivesIn cs < 2 ^ (grantedCall c s).params.idxw := by
        rw [ht, hp]
        omega
      cases j with
      | zero =>
        obtain ⟨-, -, hkeep⟩ := afterCalls_buffer hroom (ha.trans ht.symm)
        rw [Nat.add_zero, hkeep s.totalNat (by omega), hbuf, Memory.read_write_same]
        rfl
      | succ j =>
        have k := ih hroom (ha.trans ht.symm) (j := j) (by omega)
        rw [ht] at k
        rw [← Nat.add_right_comm, Nat.add_assoc] at k
        exact k

/-! ### The state in which a transaction begins -/

section
variable (s : State) (i : Instr)

theorem State.atFirstStage_of_read {i : Instr} (h : isReadType i = true) :
    s.atFirstStage i = s.accept.clearBuffer.leaveStages := by
  rw [State.atFirstStage, State.acceptFor_of_read h]

theorem State.atFirstStage_of_not_read {i : Instr} (h : isReadType i = false) :
    s.atFirstStage i = s.accept.leaveStages := by
  rw [State.atFirstStage, State.acceptFor_of_not_read h]

theorem State.atFirstStage_responses : (s.atFirstStage i).responses = s.responses := by
  unfold State.atFirstStage State.acceptFor
  split <;> rfl

theorem State.atFirstStage_hbTrace : (s.atFirstStage i).hbTrace = s.hbTrace := by
  unfold State.atFirstStage State.acceptFor
  split <;> rfl

theorem State.atFirstStage_env : SameEnv s (s.atFirstStage i) := by
  unfold State.atFirstStage State.acceptFor
  split <;> exact ⟨rfl, rfl⟩

theorem State.dropAnswers_succ (n : Nat) : s.dropAnswers (n + 1) = (s.dropAnswers n).dropAnswer := by
  induction n generalizing s with
  | zero => rfl
  | succ n ih => exact ih s.dropAnswer

/-- Granted stages use up one answer each. -/
theorem afterCalls_atFirstStage_env (lead : List Call) :
    SameEnv (s.dropAnswers lead.length) (afterCalls lead (s.atFirstStage i)) := by
  have h := afterCalls_env lead (s.atFirstStage i)
  have h0 := (s.atFirstStage_env i).dropAnswers lead.length
  exact ⟨h.env.trans h0.env, h.draws.trans h0.draws⟩

end

/-- A transaction whose first stages are granted goes on with the others from the state those leave. -/
theorem exec_of_granted_stages {i : Instr} {s : State} {lead rest : List Call}
    (hi : transactionCalls s.params.capacity i = lead ++ rest) (hne : lead ++ rest ≠ [])
    (hg : grantsAll s.params.codes s.timeoutMs (lead.map Call.prim) (s.upcoming lead.length) = true) :
    exec i s = .next (runCalls rest (afterCalls lead (s.atFirstStage i))) := by
  rw [exec_of_transaction (hi.trans_ne hne), hi]
  rw [← s.atFirstStage_params i, ← s.atFirstStage_timeoutMs i, ← (s.atFirstStage_env i).upcoming] at hg
  exact congrArg Host.Outcome.next (runCalls_granted rest hg)

end Sys2Proof.Machine
end

section
/-! PROOFS. A write all of whose primitives are granted (spec/42_write.md R140 to R145). -/

namespace Sys2Proof.Machine

theorem writeCalls_map_prim (a : BusAddress) (bytes : List Byte) :
    (writeCalls a bytes).map Call.prim = [.start, .sendA (slaW a)] ++ bytes.map Prim.sendB ++ [.stop] := by
  simp [writeCalls, sendCalls]

@[simp] theorem writeCalls_length (a : BusAddress) (bytes : List Byte) :
    (writeCalls a bytes).length = bytes.length + 3 := by
  simp [writeCalls, sendCalls]

theorem writeCalls_busOps (a : BusAddress) (bytes : List Byte) :
    (writeCalls a bytes).map (fun c => c.prim.busOp) =
      [.issueStart, .transmit (slaW a)] ++ bytes.map HbOp.transmit ++ [.issueStop] := by
  simp [writeCalls, sendCalls, Prim.busOp, Function.comp_def]

theorem writeCalls_grantedOps (a : BusAddress) (bytes : List Byte) :
    (writeCalls a bytes).flatMap (fun c => c.prim.grantedOps) =
      [.issueStart, .status, .transmit (slaW a), .status] ++ bytes.flatMap (fun b => [.transmit b, .status]) ++
        [.issueStop] := by
  simp [writeCalls, sendCalls, Prim.grantedOps, Prim.busOp, List.flatMap_map]

/-- The last stage of a granted transaction is a stop, which ends the holding of the bus (R106, R29). -/
theorem afterCalls_stop_busHeld (lead : List Call) (k : BitVec 3) (s : State) :
    (afterCalls (lead ++ [⟨k, .stop⟩]) s).busHeld = false := by
  rw [afterCalls_append]
  rfl

/-- R145, for any command that runs the stages of a write from the accepted state. -/
theorem writeSucceeds {i : Instr} {a : BusAddress} {bytes : List Byte} (hr : isReadType i = false)
    (hi : ∀ c, transactionCalls c i = writeCalls a bytes) : Claim.WriteSucceeds i a bytes := by
  intro s hg
  rw [← writeCalls_map_prim, ← writeCalls_length a bytes] at hg
  have hexec := exec_of_granted_stages (rest := []) ((hi _).trans (List.append_nil _).symm)
    (by simp [writeCalls]) hg
  have henv := afterCalls_atFirstStage_env s i (writeCalls a bytes)
  rw [writeCalls_length] at henv
  rw [s.atFirstStage_of_not_read hr] at hexec henv
  have f := afterCalls_frame (writeCalls a bytes) s.accept.leaveStages
  obtain ⟨htotal, havail, hbuf, hrx⟩ := afterCalls_of_no_receive (receivesIn_writeCalls a bytes) s.accept.leaveStages
  refine ⟨_, hexec, ?responses, ?full, ?ops, ?resets, ?held, rfl, rfl, rfl, rfl, hbuf, htotal, havail, f.timeoutMs, hrx,
    f.params, f.offers, f.resetLine, henv.env, henv.draws⟩
  case responses =>
    simp only [runCalls, State.finish_responses, f.responses]
    rfl
  case full =>
    simp only [runCalls, State.finish_hbTrace, afterCalls_fullTrace, writeCalls_grantedOps, ← List.append_assoc]
    rfl
  case ops =>
    simp only [runCalls, State.finish_hbTrace, afterCalls_busOps, writeCalls_busOps, ← List.append_assoc]
    rfl
  case resets => exact afterCalls_nReset _ _
  case held => exact afterCalls_stop_busHeld _ _ _

end Sys2Proof.Machine

namespace Sys2Proof.Proofs

open Sys2Proof.Machine

/-- Settles O21: both writes run the stages of R142, and granted stages leave what R145 lists. -/
theorem writeTransactionSucceeds : Obligations.WriteTransactionSucceeds :=
  ⟨fun _ _ _ => writeSucceeds rfl fun _ => rfl, fun _ _ _ => writeSucceeds rfl fun _ => rfl⟩

end Sys2Proof.Proofs
end

section
/-! PROOFS. A transaction that fails in one of its stages: the timeout, the unexpected status and the NACK, in any stage
(spec/42_write.md R143, R146, spec/43_read.md R157, spec/60_exceptions.md R192, R196, R197). -/

namespace Sys2Proof.Machine

/-! ### A primitive that fails -/

section
variable {p : Prim} {s : State}

/-- The primitive ends with the failure `o`, having issued its own operation and then `extra`, with `resets` lockup
recoveries. -/
structure FailsWith (p : Prim) (s : State) (o : PrimOutcome) (extra : List HbOp) (resets : Nat) : Prop where
  outcome : (runPrim p s).1 = .ended o
  ne_ok : o ≠ .ok
  busOps : busOps (runPrim p s).2.hbTrace = busOps s.hbTrace ++ p.busOp :: extra
  nReset : (runPrim p s).2.nReset = s.nReset + resets

/-- R128 (a): an expired wait is recovered. -/
theorem failsWith_timeout (h : s.answer.primWait s.timeoutMs p = .timeout) :
    FailsWith p s .timeout [.forceReset] 1 := by
  have e := runPrim_timeout h
  refine ⟨by rw [e], by simp, ?_, (runPrim_spec p s).timeout (by rw [e])⟩
  rw [e, State.recover_hbTrace, busOps_append, polled_busOps s _ p.busOp_not_read, List.append_assoc]
  rfl

/-- R107: a status in neither set is recovered and returned. -/
theorem failsWith_fault (hp : p ≠ .stop) (hw : s.answer.primWait s.timeoutMs p = .done)
    (hj : judge s.params.codes p s.answer.status = .other) :
    FailsWith p s (.fault s.answer.status) [.forceReset] 1 := by
  have e : runPrim p s = (.ended (.fault s.answer.status), (s.statusRead p).recover) :=
    (runPrim_done hp hw).trans (decideStatus_of_other hj)
  obtain ⟨-, -, -, hreset⟩ := (runPrim_spec p s).fault _ (by rw [e])
  refine ⟨by rw [e], by simp, ?_, hreset⟩
  rw [e, State.recover_hbTrace, State.statusRead, State.latchStatus_hbTrace, busOps_append, busOps_append,
    polled_busOps s _ p.busOp_not_read, List.append_assoc, List.append_assoc]
  rfl

theorem statusRead_busOps (p : Prim) (s : State) : busOps (s.statusRead p).hbTrace = busOps s.hbTrace ++ [p.busOp] := by
  rw [State.statusRead, State.latchStatus_hbTrace, busOps_append, polled_busOps s _ p.busOp_not_read]
  exact List.append_nil _

theorem statusRead_nReset (p : Prim) (s : State) : (s.statusRead p).nReset = s.nReset := by
  have h := polled_nReset s .complete p.busOp_ne_forceReset
  rw [nReset_eq] at h
  rw [nReset_eq, State.statusRead, State.latchStatus_hbTrace, List.count_append, h]
  rfl

/-- R109: a NACK is followed by a whole stop, whatever that stop ends with. -/
theorem failsWith_nack (hw : s.answer.primWait s.timeoutMs p = .done)
    (hj : judge s.params.codes p s.answer.status = .nack) {o : PrimOutcome} {t : State} {extra : List HbOp}
    {resets : Nat} (hstop : runPrim .stop (s.statusRead p) = (.ended o, t))
    (hops : busOps t.hbTrace = busOps (s.statusRead p).hbTrace ++ .issueStop :: extra)
    (hreset : t.nReset = (s.statusRead p).nReset + resets) :
    FailsWith p s (.nack s.answer.status) (.issueStop :: extra) resets := by
  have e : runPrim p s = (.ended (.nack s.answer.status), t) := by
    rw [runPrim_of_nack hw hj, hstop]
    rfl
  refine ⟨by rw [e], by simp, ?_, ?_⟩ <;> rw [e]
  · rw [hops, statusRead_busOps, List.append_assoc]
    rfl
  · rw [hreset, statusRead_nReset]

theorem failsWith_nack_of_stop_done (hw : s.answer.primWait s.timeoutMs p = .done)
    (hj : judge s.params.codes p s.answer.status = .nack)
    (hs : s.dropAnswer.answer.waitEnd .stopDone s.timeoutMs = .done) :
    FailsWith p s (.nack s.answer.status) [.issueStop] 0 :=
  failsWith_nack hw hj (runPrim_stop_done (s := s.statusRead p) hs) (polled_busOps (s.statusRead p) _ rfl)
    (polled_nReset (s.statusRead p) .stopDone (op := .issueStop) (by simp))

/-- D18: the stop of the NACK path may itself expire. -/
theorem failsWith_nack_of_stop_timeout (hw : s.answer.primWait s.timeoutMs p = .done)
    (hj : judge s.params.codes p s.answer.status = .nack)
    (hs : s.dropAnswer.answer.waitEnd .stopDone s.timeoutMs = .timeout) :
    FailsWith p s (.nack s.answer.status) [.issueStop, .forceReset] 1 :=
  have h : FailsWith .stop (s.statusRead p) .timeout [.forceReset] 1 := failsWith_timeout hs
  failsWith_nack hw hj (Prod.ext h.outcome rfl) h.busOps h.nReset

theorem mem_nackSet_of_judge {codes : StatusCodes} {x : Byte} (h : judge codes p x = .nack) : x ∈ nackSet codes p := by
  unfold judge at h
  split_ifs at h with _ hn
  exact hn

/-- A NACK is an address's or a sent byte's, so it stands in stage 2, 3 or 5 (R192). -/
theorem stage_of_judge_nack {c : Call} {codes : StatusCodes} {x : Byte} (hc : c.wellStaged = true)
    (h : judge codes c.prim x = .nack) : c.stage = 2 ∨ c.stage = 3 ∨ c.stage = 5 := by
  have hmem := mem_nackSet_of_judge h
  unfold Call.wellStaged at hc
  cases hp : c.prim with
  | sendA b =>
    simp only [hp, Bool.or_eq_true, decide_eq_true_eq] at hc
    exact hc.imp_right .inr
  | sendB b =>
    simp only [hp, decide_eq_true_eq] at hc
    exact .inr (.inl hc)
  | _ => simp [hp, nackSet] at hmem

end

/-! ### The stage it fails in -/

section
variable {s : State} {i : Instr} {k : Nat} {c : Call}

/-- The state in which the stage at position `k` of the transaction begins, those before it granted. -/
def State.beforeStage (s : State) (i : Instr) (k : Nat) : State :=
  afterCalls ((transactionCalls s.params.capacity i).take k) (s.atFirstStage i)

theorem State.beforeStage_frame (s : State) (i : Instr) (k : Nat) : StageFrame (s.atFirstStage i) (s.beforeStage i k) :=
  afterCalls_frame _ _

theorem State.beforeStage_params (s : State) (i : Instr) (k : Nat) : (s.beforeStage i k).params = s.params :=
  (s.beforeStage_frame i k).params.trans (s.atFirstStage_params i)

theorem State.beforeStage_timeoutMs (s : State) (i : Instr) (k : Nat) : (s.beforeStage i k).timeoutMs = s.timeoutMs :=
  (s.beforeStage_frame i k).timeoutMs.trans (s.atFirstStage_timeoutMs i)

theorem State.beforeStage_responses (s : State) (i : Instr) (k : Nat) : (s.beforeStage i k).responses = s.responses :=
  (s.beforeStage_frame i k).responses.trans (s.atFirstStage_responses i)

theorem State.beforeStage_nReset (s : State) (i : Instr) (k : Nat) : (s.beforeStage i k).nReset = s.nReset := by
  rw [State.beforeStage, afterCalls_nReset, nReset_eq, s.atFirstStage_hbTrace i, nReset_eq]

theorem State.beforeStage_busOps (s : State) (i : Instr) (k : Nat) :
    busOps (s.beforeStage i k).hbTrace =
      busOps s.hbTrace ++ ((transactionCalls s.params.capacity i).take k).map fun c => c.prim.busOp := by
  rw [State.beforeStage, afterCalls_busOps, s.atFirstStage_hbTrace i]

/-- The stages before position `k`, which is one of the transaction's, are `k` in number. -/
theorem length_take_of_getElem? {cs : List Call} (hc : cs[k]? = some c) : (cs.take k).length = k := by
  obtain ⟨hlt, -⟩ := List.getElem?_eq_some_iff.1 hc
  exact List.length_take_of_le hlt.le

theorem eq_take_append_cons_drop {cs : List Call} (hc : cs[k]? = some c) : cs = cs.take k ++ c :: cs.drop (k + 1) := by
  obtain ⟨hlt, rfl⟩ := List.getElem?_eq_some_iff.1 hc
  rw [← List.drop_eq_getElem_cons, List.take_append_drop]

theorem State.beforeStage_env (hc : (transactionCalls s.params.capacity i)[k]? = some c) :
    SameEnv (s.dropAnswers k) (s.beforeStage i k) := by
  have h := afterCalls_atFirstStage_env s i ((transactionCalls s.params.capacity i).take k)
  rwa [length_take_of_getElem? hc] at h

theorem transactionCalls_ne_nil (hc : (transactionCalls s.params.capacity i)[k]? = some c) :
    transactionCalls s.params.capacity i ≠ [] := by
  intro e
  rw [e] at hc
  cases hc

/-- A read's buffer before a stage: the bytes received so far, in order and unread (R157). -/
theorem State.beforeStage_buffer_of_read (hr : isReadType i = true)
    (hc : (transactionCalls s.params.capacity i)[k]? = some c) :
    (s.beforeStage i k).totalNat = receivesIn ((transactionCalls s.params.capacity i).take k) ∧
      (s.beforeStage i k).availableNat = (s.beforeStage i k).totalNat ∧
      (∀ j, j < (s.beforeStage i k).totalNat → Memory.read? (s.beforeStage i k).buf j =
        (receivedBytes ((transactionCalls s.params.capacity i).take k) (s.upcoming k))[j]?) ∧
      ∀ j, (s.beforeStage i k).totalNat ≤ j →
        Memory.read? (s.beforeStage i k).buf j = Memory.read? s.buf j := by
  have hlen := length_take_of_getElem? hc
  have hle : receivesIn ((transactionCalls s.params.capacity i).take k) ≤ s.params.capacity :=
    (receivesIn_take_le _ k).trans (receivesIn_transactionCalls_le (transactionCalls_ne_nil hc))
  have hC := s.params.capacity_lt_two_pow_idxw
  have hup := (s.atFirstStage_env i).upcoming k
  unfold State.beforeStage
  rw [s.atFirstStage_of_read hr] at hup ⊢
  generalize (transactionCalls s.params.capacity i).take k = cs at hlen hle ⊢
  have ht : s.accept.clearBuffer.leaveStages.totalNat = 0 := State.clearBuffer_totalNat s.accept
  have ha : s.accept.clearBuffer.leaveStages.availableNat = 0 := State.clearBuffer_availableNat s.accept
  have hroom : s.accept.clearBuffer.leaveStages.totalNat + receivesIn cs <
      2 ^ s.accept.clearBuffer.leaveStages.params.idxw := by
    rw [ht, Nat.zero_add]
    exact hle.trans_lt hC
  obtain ⟨htotal, havail, hkeep⟩ := afterCalls_buffer hroom (ha.trans ht.symm)
  have hbytes := fun j => afterCalls_received (j := j) hroom (ha.trans ht.symm)
  simp only [ht, Nat.zero_add, hlen, hup] at htotal hkeep hbytes
  exact ⟨htotal, havail, fun j hj => hbytes j (htotal ▸ hj), fun j hj => hkeep j (.inl (htotal ▸ hj))⟩

/-- A write's buffer is the one it began with (R147). -/
theorem State.beforeStage_buffer_of_write (hw : isReadType i = false)
    (hc : (transactionCalls s.params.capacity i)[k]? = some c) :
    (s.beforeStage i k).totalNat = s.totalNat ∧ (s.beforeStage i k).availableNat = s.availableNat ∧
      (s.beforeStage i k).buf = s.buf := by
  have hzero : receivesIn ((transactionCalls s.params.capacity i).take k) = 0 := by
    have h := receivesIn_take_le (transactionCalls s.params.capacity i) k
    rw [receivesIn_of_write (transactionCalls_ne_nil hc) hw] at h
    exact Nat.le_zero.1 h
  obtain ⟨ht, ha, hb, -⟩ := afterCalls_of_no_receive hzero (s.atFirstStage i)
  rw [s.atFirstStage_of_not_read hw] at ht ha hb
  unfold State.beforeStage
  rw [s.atFirstStage_of_not_read hw]
  exact ⟨ht, ha, hb⟩

/-- A granted lead and a primitive that fails after it: the transaction ends there, with the failure's code for the
stage (R143). -/
theorem endsAtStage (hc : (transactionCalls s.params.capacity i)[k]? = some c)
    (hg : grantsAll s.params.codes s.timeoutMs (((transactionCalls s.params.capacity i).take k).map Call.prim)
      (s.upcoming k) = true)
    {o : PrimOutcome} {extra : List HbOp} {resets : Nat}
    (hfail : FailsWith c.prim ((s.beforeStage i k).enterStage c.stage) o extra resets) :
    Claim.EndsAtStage i s k (o.remap c.stage) extra resets := by
  have hlen := length_take_of_getElem? hc
  have hsplit := eq_take_append_cons_drop hc
  have hexec := exec_of_granted_stages hsplit (by simp) (by rw [hlen]; exact hg)
  have hrun : runPrim c.prim ((s.beforeStage i k).enterStage c.stage) =
      (.ended o, (runPrim c.prim ((s.beforeStage i k).enterStage c.stage)).2) := Prod.ext hfail.outcome rfl
  have f := runPrim_frame c.prim ((s.beforeStage i k).enterStage c.stage)
  refine ⟨_, hexec.trans (congrArg Host.Outcome.next (runCalls_fails hrun hfail.ne_ok)), ?responses, ?ops, ?resets,
    (runPrim_spec _ _).fails o hfail.outcome hfail.ne_ok, rfl, rfl, rfl, rfl,
    f.timeoutMs.trans (s.beforeStage_timeoutMs i k), fun hr => ?read, fun hw => ?write⟩
  case responses =>
    rw [State.finish_responses, f.responses, State.enterStage_responses, s.beforeStage_responses i k]
  case ops =>
    rw [State.finish_hbTrace, hfail.busOps, State.enterStage_hbTrace, s.beforeStage_busOps i k, List.take_add_one, hc]
    simp
  case resets => exact hfail.nReset.trans (congrArg (· + resets) (s.beforeStage_nReset i k))
  case read =>
    rw [State.finish_totalNat, State.finish_availableNat, State.finish_buf, f.total, f.available, f.buf]
    exact State.beforeStage_buffer_of_read hr hc
  case write =>
    rw [State.finish_totalNat, State.finish_availableNat, State.finish_buf, f.total, f.available, f.buf]
    exact State.beforeStage_buffer_of_write hw hc

end

end Sys2Proof.Machine

namespace Sys2Proof.Proofs

open Sys2Proof.Machine

/-- Settles O24: the stages before are granted, and the primitive whose wait expires is recovered. -/
theorem transactionTimeoutGivesStage : Obligations.TransactionTimeoutGivesStage := by
  intro i s k c hc hg hw
  have henv := State.beforeStage_env hc
  rw [← henv.answer, ← s.beforeStage_timeoutMs i k] at hw
  exact endsAtStage hc hg (failsWith_timeout hw)

/-- Settles O25: the stages before are granted, and the status in neither set is recovered and returned as it is. -/
theorem transactionFaultGivesStatus : Obligations.TransactionFaultGivesStatus := by
  intro i s k c hc hg hp hw hj
  have henv := State.beforeStage_env hc
  rw [← henv.answer] at hw hj ⊢
  rw [← s.beforeStage_timeoutMs i k] at hw
  rw [← s.beforeStage_params i k] at hj
  exact endsAtStage hc hg (failsWith_fault hp hw hj)

/-- Settles O26: only the primitives of stages 2, 3 and 5 have a NACK set; the outcome of the stop that follows is
dropped. -/
theorem transactionNackGivesStage : Obligations.TransactionNackGivesStage := by
  intro i s k c hc hg hw hj
  have henv := State.beforeStage_env hc
  have hdrop := henv.drop.answer
  rw [← State.dropAnswers_succ] at hdrop
  have hstaged : c.wellStaged = true :=
    List.all_eq_true.1 (transactionCalls_wellStaged (transactionCalls_ne_nil hc)) c (List.mem_of_getElem? hc)
  rw [← henv.answer, ← s.beforeStage_timeoutMs i k] at hw
  rw [← henv.answer, ← s.beforeStage_params i k] at hj
  refine ⟨stage_of_judge_nack hstaged hj, fun hs => ?done, fun hs => ?timeout⟩ <;>
    rw [← hdrop, ← s.beforeStage_timeoutMs i k] at hs
  case done => exact endsAtStage hc hg (failsWith_nack_of_stop_done hw hj hs)
  case timeout => exact endsAtStage hc hg (failsWith_nack_of_stop_timeout hw hj hs)

end Sys2Proof.Proofs
end

section
/-! PROOFS. The ReceiveBuffer plays no part in a command that is neither read-type, AVAIL nor RECV (spec/42_write.md
R147, spec/10_state.md R23): whatever the buffer holds, the command does the same and leaves it. -/

namespace Sys2Proof.Machine

/-! ### An update of registers that no primitive reads or writes -/

/-- Where a primitive stands, with the update made. -/
def updated (f : State → State) (r : Progress × State) : Progress × State := (r.1, f r.2)

/-- The update `f` touches nothing a primitive reads or writes. -/
structure PrimBlind (f : State → State) : Prop where
  params : ∀ s, (f s).params = s.params
  timeoutMs : ∀ s, (f s).timeoutMs = s.timeoutMs
  t0 : ∀ s, (f s).t0 = s.t0
  st : ∀ s, (f s).st = s.st
  answer : ∀ s, (f s).answer = s.answer
  dropAnswer : ∀ s, (f s).dropAnswer = f s.dropAnswer
  issue : ∀ s now op, (f s).issue now op = f (s.issue now op)
  emit : ∀ s l, (f s).emit l = f (s.emit l)
  recover : ∀ s, (f s).recover = f s.recover
  setHeld : ∀ s b, (f s).setHeld b = f (s.setHeld b)
  latchStatus : ∀ s x, (f s).latchStatus x = f (s.latchStatus x)
  latchRx : ∀ s x, (f s).latchRx x = f (s.latchRx x)

section
variable {f : State → State} (h : PrimBlind f) (s : State) (p : Prim) (a : Answer)
include h

theorem PrimBlind.guardedWait (on : WaitOn) (polls : List Poll) :
    (f s).guardedWait on polls = ((s.guardedWait on polls).1, f (s.guardedWait on polls).2) := by
  simp only [guardedWait_eq, h.timeoutMs, h.t0, h.emit, h.recover, apply_ite f]

theorem PrimBlind.awaitStop : awaitStop a (f s) = updated f (awaitStop a s) := by
  unfold Machine.awaitStop
  rw [h.guardedWait]
  obtain ⟨_ | _ | _, t⟩ := s.guardedWait .stopDone a.polls
  · exact congrArg (Prod.mk _) (h.setHeld t false)
  · rfl
  · rfl

theorem PrimBlind.primStop : primStop (f s) = updated f (primStop s) := by
  unfold Machine.primStop
  rw [h.answer, h.dropAnswer, h.issue, h.awaitStop]

theorem PrimBlind.succeed : (f s).succeed p a = f (s.succeed p a) := by
  cases p with
  | start => exact h.setHeld s true
  | recvB ack => exact h.latchRx s a.rxData
  | _ => rfl

theorem PrimBlind.decideStatus : decideStatus p a (f s) = updated f (decideStatus p a s) := by
  unfold Machine.decideStatus
  rw [h.params, h.st]
  cases judge s.params.codes p s.st with
  | success => exact congrArg (Prod.mk _) (h.succeed s p a)
  | nack =>
    dsimp only
    rw [h.primStop]
    obtain ⟨_ | _, t⟩ := Machine.primStop s <;> rfl
  | other => exact congrArg (Prod.mk _) (h.recover s)

theorem PrimBlind.awaitComplete : awaitComplete p a (f s) = updated f (awaitComplete p a s) := by
  unfold Machine.awaitComplete
  rw [h.guardedWait]
  obtain ⟨_ | _ | _, t⟩ := s.guardedWait .complete a.polls
  · dsimp only
    rw [h.latchStatus, h.decideStatus]
  · rfl
  · rfl

theorem PrimBlind.awaitPrim : awaitPrim p a (f s) = updated f (awaitPrim p a s) := by
  cases p with
  | stop => exact h.awaitStop s a
  | start => exact h.awaitComplete s _ a
  | sendA b => exact h.awaitComplete s _ a
  | sendB b => exact h.awaitComplete s _ a
  | recvB ack => exact h.awaitComplete s _ a

theorem PrimBlind.runPrim : runPrim p (f s) = updated f (runPrim p s) := by
  unfold Machine.runPrim
  rw [h.answer, h.dropAnswer, h.issue, h.awaitPrim]

end

/-! ### Another buffer -/

/-- The state with this buffer and these counters. -/
def State.withBuffer (m : Memory) (total available : Nat) (s : State) : State :=
  { s with buf := m, total := BitVec.ofNat _ total, available := BitVec.ofNat _ available }

section
variable (m : Memory) (total available : Nat) (s : State)

theorem withBuffer_primBlind : PrimBlind (State.withBuffer m total available) where
  params _ := rfl
  timeoutMs _ := rfl
  t0 _ := rfl
  st _ := rfl
  answer _ := rfl
  dropAnswer _ := rfl
  issue _ _ _ := rfl
  emit _ _ := rfl
  recover _ := rfl
  setHeld _ _ := rfl
  latchStatus _ _ := rfl
  latchRx _ _ := rfl

theorem runPrimitiveCommand_withBuffer (p : Prim) :
    runPrimitiveCommand p (s.withBuffer m total available) =
      (runPrimitiveCommand p s).withBuffer m total available := by
  have e : runPrim p (s.withBuffer m total available).accept = _ :=
    (withBuffer_primBlind m total available).runPrim s.accept p
  unfold runPrimitiveCommand
  rw [e]
  obtain ⟨o | ph, t⟩ := runPrim p s.accept
  · cases o <;> cases p <;> rfl
  · rfl

/-- Stages that receive nothing do the same from any buffer, and leave it. -/
theorem runCalls_withBuffer {cs : List Call} (hcs : receivesIn cs = 0) :
    runCalls cs (s.withBuffer m total available) = (runCalls cs s).withBuffer m total available := by
  induction cs generalizing s with
  | nil => rfl
  | cons c cs ih =>
    obtain ⟨hc, hrest⟩ := receivesIn_cons_eq_zero hcs
    have e : runPrim c.prim ((s.withBuffer m total available).enterStage c.stage) = _ :=
      (withBuffer_primBlind m total available).runPrim (s.enterStage c.stage) c.prim
    have hadvance : ∀ t : State, c.advance (t.withBuffer m total available) =
        (c.advance t).withBuffer m total available := fun t => by
      unfold Call.advance
      cases hp : c.prim with
      | recvB ack => simp [hp, Prim.isReceive] at hc
      | _ => rfl
    simp only [runCalls]
    rw [e]
    obtain ⟨o | ph, t⟩ := runPrim c.prim (s.enterStage c.stage)
    · cases o with
      | ok => exact (congrArg (runCalls cs) (hadvance t)).trans (ih _ hrest)
      | _ => rfl
    · rfl

variable {m total available s}

theorem exec_withBuffer {i : Instr} {t : State} (hr : isReadType i = false) (ha : i ≠ .avail) (hv : i ≠ .recv)
    (h : exec i s = .next t) :
    exec i (s.withBuffer m total available) = .next (t.withBuffer m total available) := by
  rcases command_kinds i s.params.capacity with ⟨p, hp⟩ | hi | hl
  case inl =>
    rw [exec_of_primOf hp] at h ⊢
    obtain rfl := Host.Outcome.next.inj h
    rw [runPrimitiveCommand_withBuffer]
  case inr.inl =>
    rw [exec_of_transaction hi, State.acceptFor_of_not_read hr] at h ⊢
    obtain rfl := Host.Outcome.next.inj h
    exact congrArg Host.Outcome.next (runCalls_withBuffer m total available s.accept.leaveStages
      (receivesIn_of_write hi hr))
  case inr.inr =>
    cases i with
    | avail => exact absurd rfl ha
    | recv => exact absurd rfl hv
    | setto v =>
      obtain rfl := Host.Outcome.next.inj h
      rfl
    | getto =>
      obtain rfl := Host.Outcome.next.inj h
      rfl
    | _ => cases hl

end

end Sys2Proof.Machine

namespace Sys2Proof.Proofs

open Sys2Proof.Machine

/-- Settles O29: the frame of O36 leaves the buffer, and no primitive, no stage without a receive and neither timeout
command looks at it. -/
theorem bufferPlaysNoPart : Obligations.BufferPlaysNoPart := by
  intro i s t m total available hr ha hv h
  obtain ⟨-, hbuf, havail, -⟩ := onlyNamedCommandsWrite i s t h
  obtain ⟨hb, ht⟩ := hbuf hr
  exact ⟨hb, ht, havail hr hv, exec_withBuffer hr ha hv h⟩

end Sys2Proof.Proofs
end

section
/-! PROOFS. RECV after RECV drains the unread bytes, oldest first (spec/44_buffer_config.md R171, spec/10_state.md R22,
spec/43_read.md R159). -/

namespace Sys2Proof.Machine

theorem runCommands_append (xs ys : List Instr) (s : State) :
    runCommands (xs ++ ys) s = (runCommands xs s).bind (runCommands ys) := by
  induction xs generalizing s with
  | nil => rfl
  | cons i is ih =>
    simp only [List.cons_append, runCommands]
    cases exec i s with
    | next t => exact ih t
    | fault r => rfl
    | refused r => rfl

theorem runCommands_cons_of_next {i : Instr} {s t : State} (h : exec i s = .next t) (is : List Instr) :
    runCommands (i :: is) s = runCommands is t := by
  simp only [runCommands, h]

/-- The consumer's commands that lead from `s` to `t` handed back the responses `rs` and left all but `available`. -/
structure Consumed (s t : State) (rs : List Response) : Prop where
  responses : t.responses = s.responses ++ rs
  total : t.totalNat = s.totalNat
  buf : t.buf = s.buf
  timeoutMs : t.timeoutMs = s.timeoutMs
  hbTrace : t.hbTrace = s.hbTrace

theorem Consumed.refl (s : State) : Consumed s s [] := ⟨(List.append_nil _).symm, rfl, rfl, rfl, rfl⟩

theorem Consumed.trans {s t u : State} {xs ys : List Response} (h : Consumed s t xs) (k : Consumed t u ys) :
    Consumed s u (xs ++ ys) :=
  ⟨by rw [k.responses, h.responses, List.append_assoc], k.total.trans h.total, k.buf.trans h.buf,
    k.timeoutMs.trans h.timeoutMs, k.hbTrace.trans h.hbTrace⟩

/-- What RECV hands back for the unread byte `k` places after the oldest one (R22, R171). -/
def State.unreadResponse (s : State) (k : Nat) : Response :=
  ⟨false, 0, ((Memory.read? s.buf (s.totalNat - s.availableNat + k)).getD 0).setWidth 16⟩

/-- RECV where a byte is unread: the buffer invariant gives the byte and is kept (R171, R22). -/
theorem exec_recv_of_unread {s : State} (h : s.BufferInv) (hne : s.availableNat ≠ 0) :
    ∃ t, exec .recv s = .next t ∧ Consumed s t [s.unreadResponse 0] ∧ t.availableNat = s.availableNat - 1 ∧
      t.BufferInv := by
  have ⟨_, hcov, _, hat, htc⟩ := h
  have hindex : s.readIndex = some (s.totalNat - s.availableNat) := if_pos ⟨hat, by omega⟩
  obtain ⟨b, hb⟩ := Option.isSome_iff_exists.1 (hcov (s.totalNat - s.availableNat) (by omega))
  refine ⟨_, exec_recv_of_byte hne hindex hb, ⟨?_, rfl, rfl, rfl, rfl⟩, ?_, ?_⟩
  · rw [State.unreadResponse, Nat.add_zero, hb]
    rfl
  · exact State.consume_availableNat s.accept hne
  · exact State.BufferInv.consume (s := s.accept) h hne

/-- The oldest byte taken, the next one is the oldest. -/
theorem Consumed.unreadResponse {s t : State} {rs : List Response} (h : Consumed s t rs)
    (ha : t.availableNat = s.availableNat - 1) (hne : s.availableNat ≠ 0) (hat : s.availableNat ≤ s.totalNat) (k : Nat) :
    t.unreadResponse k = s.unreadResponse (k + 1) := by
  have e : s.totalNat - (s.availableNat - 1) + k = s.totalNat - s.availableNat + (k + 1) := by omega
  rw [State.unreadResponse, h.buf, h.total, ha, e, State.unreadResponse]

/-- As many RECV as there are unread bytes. -/
theorem runCommands_recv_unread {n : Nat} {s : State} (h : s.BufferInv) (hn : s.availableNat = n) :
    ∃ t, runCommands (List.replicate n .recv) s = some t ∧ Consumed s t ((List.range n).map s.unreadResponse) ∧
      t.availableNat = 0 := by
  induction n generalizing s with
  | zero => exact ⟨s, rfl, .refl s, hn⟩
  | succ n ih =>
    have hne : s.availableNat ≠ 0 := by omega
    obtain ⟨u, hexec, hfirst, hu, hinv⟩ := exec_recv_of_unread h hne
    obtain ⟨t, hrun, hrest, ht⟩ := ih hinv (by omega)
    refine ⟨t, (runCommands_cons_of_next hexec _).trans hrun, ?_, ht⟩
    have hshift : u.unreadResponse = s.unreadResponse ∘ Nat.succ :=
      funext (hfirst.unreadResponse hu hne h.availableNat_le_totalNat)
    rw [List.range_succ_eq_map, List.map_cons, List.map_map, ← hshift]
    exact hfirst.trans hrest

/-- RECV on an empty buffer, any number of times. -/
theorem runCommands_recv_empty (n : Nat) {s : State} (h : s.availableNat = 0) :
    ∃ t, runCommands (List.replicate n .recv) s = some t ∧ Consumed s t (List.replicate n ⟨false, 0, 0⟩) ∧
      t.availableNat = 0 := by
  induction n generalizing s with
  | zero => exact ⟨s, rfl, .refl s, h⟩
  | succ n ih =>
    obtain ⟨t, hrun, hrest, ht⟩ := ih (s := s.accept.respond 0 0) h
    have hfirst : Consumed s (s.accept.respond 0 0) [⟨false, 0, 0⟩] := ⟨rfl, rfl, rfl, rfl, rfl⟩
    exact ⟨t, (runCommands_cons_of_next (exec_recv_of_empty h) _).trans hrun, hfirst.trans hrest, ht⟩

end Sys2Proof.Machine

namespace Sys2Proof.Proofs

open Sys2Proof.Machine

/-- Settles O33: an induction over the unread bytes, each RECV keeping the buffer invariant, then one over the RECV that
find the buffer empty. -/
theorem recvDrainsInOrder : Obligations.RecvDrainsInOrder := by
  intro s extra h
  obtain ⟨u, hunread, hdrained, hu⟩ := runCommands_recv_unread h rfl
  obtain ⟨t, hempty, hzeros, ht⟩ := runCommands_recv_empty extra hu
  have hall := hdrained.trans hzeros
  refine ⟨t, ?_, ?_, ht, hall.total, hall.buf, hall.timeoutMs, hall.hbTrace⟩
  · rw [List.replicate_add, runCommands_append, hunread]
    exact hempty
  · rw [hall.responses, List.append_assoc]
    rfl

end Sys2Proof.Proofs
end

section
/-! PROOFS. A read's buffer, whatever the outcome: the bytes delivered to its receives, in order, and nothing else
(spec/43_read.md R152, R157, spec/10_state.md R61). -/

namespace Sys2Proof.Machine

/-! ### A primitive that succeeds -/

section
variable {p : Prim} {a : Answer} {s t : State}

/-- A primitive that succeeds with the answer `a` uses no other answer, and a receive takes that answer's byte (R104). -/
structure SucceedsWith (p : Prim) (a : Answer) (s t : State) : Prop where
  env : SameEnv s t
  rx : p.isReceive = true → t.rx = a.rxData

theorem succeed_succeedsWith (p : Prim) (a : Answer) (s : State) : SucceedsWith p a s (s.succeed p a) := by
  cases p <;> exact ⟨⟨rfl, rfl⟩, by simp [Prim.isReceive, State.succeed]⟩

theorem SameEnv.succeedsWith {u : State} (h : SameEnv s u) (k : SucceedsWith p a u t) : SucceedsWith p a s t :=
  ⟨⟨k.env.env.trans h.env, k.env.draws.trans h.draws⟩, k.rx⟩

theorem guardedWait_env (s : State) (on : WaitOn) (polls : List Poll) : SameEnv s (s.guardedWait on polls).2 := by
  rw [guardedWait_eq]
  dsimp only
  split <;> exact ⟨rfl, rfl⟩

/-- The NACK path never ends with `OK` (R109). -/
theorem dropStopOutcome_ne_ok (x : Byte) (r : Progress × State) : (dropStopOutcome x r).1 ≠ .ended .ok := by
  obtain ⟨_ | _, _⟩ := r <;> simp [dropStopOutcome]

theorem decideStatus_ok (h : (decideStatus p a s).1 = .ended .ok) : SucceedsWith p a s (decideStatus p a s).2 := by
  unfold decideStatus at h ⊢
  cases hj : judge s.params.codes p s.st with
  | success => exact succeed_succeedsWith p a s
  | nack =>
    rw [hj] at h
    exact absurd h (dropStopOutcome_ne_ok _ _)
  | other =>
    rw [hj] at h
    cases h

theorem awaitComplete_ok (h : (awaitComplete p a s).1 = .ended .ok) : SucceedsWith p a s (awaitComplete p a s).2 := by
  have henv := guardedWait_env s .complete a.polls
  unfold awaitComplete at h ⊢
  generalize s.guardedWait .complete a.polls = w at h henv ⊢
  obtain ⟨_ | _ | _, u⟩ := w
  · have hu : SameEnv s (u.latchStatus a.status) := ⟨henv.env, henv.draws⟩
    exact hu.succeedsWith (decideStatus_ok h)
  · cases h
  · cases h

theorem awaitStop_ok (h : (awaitStop a s).1 = .ended .ok) : SucceedsWith .stop a s (awaitStop a s).2 := by
  have henv := guardedWait_env s .stopDone a.polls
  unfold awaitStop at h ⊢
  generalize s.guardedWait .stopDone a.polls = w at h henv ⊢
  obtain ⟨_ | _ | _, u⟩ := w
  · exact ⟨⟨henv.env, henv.draws⟩, nofun⟩
  · cases h
  · cases h

theorem awaitPrim_ok (h : (awaitPrim p a s).1 = .ended .ok) : SucceedsWith p a s (awaitPrim p a s).2 := by
  cases p with
  | stop => exact awaitStop_ok h
  | start => exact awaitComplete_ok h
  | sendA b => exact awaitComplete_ok h
  | sendB b => exact awaitComplete_ok h
  | recvB ack => exact awaitComplete_ok h

end

/-! ### A primitive and the bytes it takes -/

/-- The primitive `p`, in state `s` before its next answer, stands at `r`: it took a byte exactly if it is a receive that
succeeded, then that answer's, and used no other answer. -/
structure TakesByte (p : Prim) (s : State) (r : Progress × State) : Prop where
  frame : PrimFrame s r.2
  count : r.2.hbTrace.count .rxData =
    s.hbTrace.count .rxData + if p.isReceive = true ∧ r.1 = .ended .ok then 1 else 0
  ok : r.1 = .ended .ok → SucceedsWith p s.answer s.dropAnswer r.2

theorem runPrim_takesByte (p : Prim) (s : State) : TakesByte p s (runPrim p s) where
  frame := runPrim_frame p s
  count := (runPrim_spec p s).rxData
  ok h :=
    have hissue : SameEnv s.dropAnswer (s.dropAnswer.issue s.answer.now0 p.busOp) := ⟨rfl, rfl⟩
    hissue.succeedsWith (awaitPrim_ok h)

/-- Unlike the outcome of `resumePrim_spec`, this needs nothing of the status in `st`. -/
theorem resumePrim_takesByte (ph : Phase) (p : Prim) (s : State) : TakesByte p s (resumePrim ph p s) where
  frame := resumePrim_frame ph p s
  count := by
    cases ph with
    | action => exact (awaitPrim_spec p s.answer s.dropAnswer).rxData
    | nackStop =>
      have hne := dropStopOutcome_ne_ok s.st (awaitStop s.answer s.dropAnswer)
      have hstop := (awaitStop_spec s.answer s.dropAnswer).rxData
      rw [if_neg (by simp [Prim.isReceive])] at hstop
      simp only [resumePrim, dropStopOutcome_snd, hstop, hne, and_false, if_false, State.dropAnswer_hbTrace]
  ok h := by
    cases ph with
    | action => exact awaitPrim_ok h
    | nackStop => exact absurd h (dropStopOutcome_ne_ok _ _)

/-! ### The bytes stored since a state -/

/-- Since `s` the bytes `bs` were taken from the controller and stored after those already there, unread, and nothing
else was written to the buffer (R152). -/
structure Stored (s t : State) (bs : List Byte) : Prop where
  total : t.totalNat = s.totalNat + bs.length
  available : s.availableNat = s.totalNat → t.availableNat = t.totalNat
  count : t.hbTrace.count .rxData = s.hbTrace.count .rxData + bs.length
  bytes : ∀ j, j < bs.length → Memory.read? t.buf (s.totalNat + j) = bs[j]?
  others : ∀ j, j < s.totalNat ∨ t.totalNat ≤ j → Memory.read? t.buf j = Memory.read? s.buf j

section
variable {s t u : State} {bs : List Byte} {p : Prim} {r : Progress × State}

theorem Stored.refl (s : State) : Stored s s [] := ⟨rfl, id, rfl, nofun, fun _ _ => rfl⟩

/-- The claim looks at the buffer, its counters and the reads of a byte alone. -/
theorem Stored.congr (h : Stored s t bs) (hb : u.buf = t.buf) (ht : u.totalNat = t.totalNat)
    (ha : u.availableNat = t.availableNat) (hc : u.hbTrace.count .rxData = t.hbTrace.count .rxData) :
    Stored s u bs := by
  obtain ⟨total, available, count, bytes, others⟩ := h
  constructor
  · rw [ht, total]
  · rw [ht, ha]; exact available
  · rw [hc, count]
  · rw [hb]; exact bytes
  · rw [hb, ht]; exact others

/-- A primitive that took no byte. -/
theorem Stored.prim (h : Stored s t bs) (k : TakesByte p t r) (hr : p.isReceive = false ∨ r.1 ≠ .ended .ok) :
    Stored s r.2 bs := by
  refine h.congr k.frame.buf k.frame.total k.frame.available ?_
  have hnone : ¬(p.isReceive = true ∧ r.1 = .ended .ok) := by
    rintro ⟨hp, hok⟩
    rcases hr with hr | hr
    · rw [hp] at hr
      cases hr
    · exact hr hok
  rw [k.count, if_neg hnone, Nat.add_zero]

/-- A byte taken and stored in a free place (R152, R64 (a)). -/
theorem Stored.appendRx (h : Stored s t bs) (hroom : t.totalNat < t.params.capacity) (hb : u.buf = t.buf)
    (ht : u.totalNat = t.totalNat) (ha : u.availableNat = t.availableNat) (hp : u.params = t.params)
    (hc : u.hbTrace.count .rxData = t.hbTrace.count .rxData + 1) : Stored s u.appendRx (bs ++ [u.rx]) := by
  obtain ⟨total, available, count, bytes, others⟩ := h
  have htotal : u.appendRx.totalNat = u.totalNat + 1 := State.appendRx_totalNat_of_lt_capacity (by rwa [ht, hp])
  have hbuf : u.appendRx.buf = Memory.write t.buf (s.totalNat + bs.length) u.rx := by
    rw [State.appendRx_buf, hb, ht, total]
  constructor
  · rw [htotal, ht, total, List.length_append, List.length_singleton, Nat.add_assoc]
  · intro he
    have hat := available he
    rw [State.appendRx_availableNat_of_lt_capacity (by rwa [ha, hat, hp]), htotal, ha, ht, hat]
  · rw [State.appendRx_hbTrace, hc, count, List.length_append, List.length_singleton, Nat.add_assoc]
  · intro j hj
    rw [List.length_append, List.length_singleton] at hj
    rw [hbuf]
    rcases Nat.lt_succ_iff_lt_or_eq.1 hj with hlt | rfl
    · rw [Memory.read_write_other _ (by omega), bytes j hlt, List.getElem?_append_left hlt]
    · rw [Memory.read_write_same, List.getElem?_concat_length]
  · intro j hj
    rw [hbuf, Memory.read_write_other _ (by omega)]
    exact others j (by omega)

end

/-! ### Along the stages of a transaction -/

/-- Before the stages `cs` of a transaction that began (or was gone on with) in `s`: the bytes taken so far and those the
controller has for the stages to come are `bytes`, and there is room for these. -/
def ReadsOn (s : State) (bytes : List Byte) (cs : List Call) (t : State) : Prop :=
  ReceivesFit cs t ∧ ∃ bs, Stored s t bs ∧ bs ++ receivedBytes cs (t.upcoming cs.length) = bytes

/-- The bytes stored since `s` are the first ones of these. -/
def StoredPrefix (s : State) (bytes : List Byte) (t : State) : Prop := ∃ bs, Stored s t bs ∧ bs <+: bytes

section
variable {s t u : State} {bytes bs : List Byte} {c : Call} {cs : List Call} {r : Progress × State}

theorem Call.isReceive_eq (c : Call) : c.isReceive = c.prim.isReceive := by
  unfold Call.isReceive Prim.isReceive
  cases c.prim <;> rfl

theorem StoredPrefix.congr (h : StoredPrefix s bytes t) (hb : u.buf = t.buf) (ht : u.totalNat = t.totalNat)
    (ha : u.availableNat = t.availableNat) (hc : u.hbTrace = t.hbTrace) : StoredPrefix s bytes u := by
  obtain ⟨bs, hs, hbs⟩ := h
  exact ⟨bs, hs.congr hb ht ha (by rw [hc]), hbs⟩

theorem ReadsOn.storedPrefix (h : ReadsOn s bytes cs t) : StoredPrefix s bytes t := by
  obtain ⟨-, bs, hs, rfl⟩ := h
  exact ⟨bs, hs, List.prefix_append _ _⟩

/-- Whether a stage is entered plays no part. -/
theorem ReadsOn.enterStage (h : ReadsOn s bytes cs t) (k : BitVec 3) : ReadsOn s bytes cs (t.enterStage k) := by
  obtain ⟨hfit, bs, hs, hbs⟩ := h
  have henv : SameEnv t (t.enterStage k) := ⟨rfl, rfl⟩
  exact ⟨hfit, bs, hs.congr rfl rfl rfl rfl, by rw [henv.upcoming, hbs]⟩

/-- A stage that failed or goes on stored nothing (R157). -/
theorem ReadsOn.prim_of_ne_ok (h : ReadsOn s bytes (c :: cs) t) (k : TakesByte c.prim t r) (hr : r.1 ≠ .ended .ok) :
    StoredPrefix s bytes r.2 := by
  obtain ⟨bs, hs, hbs⟩ := h.storedPrefix
  exact ⟨bs, hs.prim k (.inr hr), hbs⟩

theorem Call.advance_env (c : Call) (s : State) : SameEnv s (c.advance s) := by
  unfold Call.advance
  cases c.prim <;> exact ⟨rfl, rfl⟩

theorem Stored.advance_of_not_receive (hs : Stored s t bs) (hc : c.prim.isReceive = false) :
    Stored s (c.advance t) bs := by
  unfold Call.advance
  cases hp : c.prim with
  | recvB ack => simp [hp, Prim.isReceive] at hc
  | _ => exact hs.congr rfl rfl rfl rfl

theorem Call.advance_of_receive (hc : c.prim.isReceive = true) (s : State) : c.advance s = s.appendRx.advanceIdx := by
  unfold Call.advance
  cases hp : c.prim <;> simp_all [Prim.isReceive]

/-- A stage that succeeded: a receive stored its answer's byte, any other stage nothing (R152). -/
theorem ReadsOn.advance (h : ReadsOn s bytes (c :: cs) t) (k : TakesByte c.prim t r) (hok : r.1 = .ended .ok) :
    ReadsOn s bytes cs (c.advance r.2) := by
  obtain ⟨hfit, bs, hs, hbs⟩ := h
  have hsucc := k.ok hok
  have hup : (c.advance r.2).upcoming cs.length = t.dropAnswer.upcoming cs.length := by
    rw [(c.advance_env r.2).upcoming, hsucc.env.upcoming]
  have hfit' : ReceivesFit (c :: cs) r.2 := by
    unfold ReceivesFit
    rw [k.frame.total, k.frame.params]
    exact hfit
  refine ⟨hfit'.advance, ?_⟩
  rw [hup]
  simp only [List.length_cons, State.upcoming, receivedBytes, c.isReceive_eq] at hbs
  cases hc : c.prim.isReceive with
  | false =>
    rw [hc] at hbs
    exact ⟨bs, (hs.prim k (.inl hc)).advance_of_not_receive hc, hbs⟩
  | true =>
    rw [hc, if_pos rfl] at hbs
    have hroom : t.totalNat < t.params.capacity := by
      rw [ReceivesFit, receivesIn_cons, c.isReceive_eq, hc, if_pos rfl] at hfit
      omega
    have hcount := k.count
    rw [if_pos ⟨hc, hok⟩] at hcount
    have happend := hs.appendRx hroom k.frame.buf k.frame.total k.frame.available k.frame.params hcount
    refine ⟨bs ++ [r.2.rx], ?_, ?_⟩
    · rw [Call.advance_of_receive hc]
      exact happend.congr rfl rfl rfl rfl
    · rw [hsucc.rx hc, List.append_assoc]
      exact hbs

/-- What becomes of a transaction whose stage did not succeed: it ends, or goes on in the next step (R143, R125). -/
theorem settleCall_of_ne_ok (hr : r.1 ≠ .ended .ok) (rest : State → State) (c : Call) (cs : List Call) :
    (∃ x, settleCall rest c cs r = r.2.finish x) ∨ ∃ j, settleCall rest c cs r = r.2.suspend j := by
  obtain ⟨o | ph, t⟩ := r
  · cases o with
    | ok => exact absurd rfl hr
    | timeout => exact .inl ⟨_, rfl⟩
    | nack x => exact .inl ⟨_, rfl⟩
    | fault x => exact .inl ⟨_, rfl⟩
  · exact .inr ⟨_, rfl⟩

/-- A stage's outcome, given what the stages after it come to. `StageRule` does not serve here: it asks the claim of a
stage that ends the transaction whatever its outcome, and a receive that succeeded has its byte not stored yet. -/
theorem ReadsOn.settleWith {rest : State → State} (hrest : ∀ u, ReadsOn s bytes cs u → StoredPrefix s bytes (rest u))
    (h : ReadsOn s bytes (c :: cs) t) (k : TakesByte c.prim t r) : StoredPrefix s bytes (settleCall rest c cs r) := by
  by_cases hok : r.1 = .ended .ok
  · have hnext := hrest _ (h.advance k hok)
    obtain ⟨o, u⟩ := r
    obtain rfl : o = .ended .ok := hok
    exact hnext
  · have hend := h.prim_of_ne_ok k hok
    rcases settleCall_of_ne_ok hok rest c cs with ⟨x, e⟩ | ⟨j, e⟩ <;> rw [e] <;> exact hend.congr rfl rfl rfl rfl

theorem ReadsOn.runCalls (h : ReadsOn s bytes cs t) : StoredPrefix s bytes (runCalls cs t) := by
  induction cs generalizing t with
  | nil => exact h.storedPrefix.congr rfl rfl rfl rfl
  | cons c cs ih => exact (h.enterStage c.stage).settleWith (fun _ => ih) (runPrim_takesByte _ _)

theorem ReadsOn.resume {ph : Phase} (h : ReadsOn s bytes (c :: cs) t) :
    StoredPrefix s bytes ((Job.transaction ph c cs).resume t) :=
  h.settleWith (fun _ => ReadsOn.runCalls) (resumePrim_takesByte ph c.prim t)

/-- Where the stages fit the buffer, what is to come is all the controller delivers to them. -/
theorem ReceivesFit.readsOn (h : ReceivesFit cs s) : ReadsOn s (receivedBytes cs (s.upcoming cs.length)) cs s :=
  ⟨h, [], .refl s, rfl⟩

/-- Byte `j` stored since `s` is the `j`-th one delivered. -/
theorem Stored.read_eq (h : Stored s t bs) (hbs : bs <+: bytes) {j : Nat} (hj : j < bs.length) :
    (Memory.read? t.buf (s.totalNat + j)).isSome ∧ Memory.read? t.buf (s.totalNat + j) = bytes[j]? := by
  rw [h.bytes j hj, List.prefix_iff_getElem?.1 hbs j hj, List.getElem?_eq_getElem hj]
  exact ⟨rfl, rfl⟩

end

theorem receivedBytes_length_le (cs : List Call) (as : List Answer) : (receivedBytes cs as).length ≤ receivesIn cs := by
  induction cs generalizing as with
  | nil => exact Nat.zero_le _
  | cons c cs ih =>
    cases as with
    | nil => exact Nat.zero_le _
    | cons a as =>
      have hrest := ih as
      rw [receivesIn_cons, receivedBytes]
      cases c.isReceive with
      | false => exact hrest
      | true => exact Nat.succ_le_succ hrest

theorem transactionCalls_ne_nil_of_read {i : Instr} (h : isReadType i = true) (c : Nat) : transactionCalls c i ≠ [] := by
  cases i with
  | read a n => exact stages_ne_nil _
  | wrrdP8 a p n => exact stages_ne_nil _
  | wrrdP16 a p n => exact stages_ne_nil _
  | _ => cases h

/-- A read-type command clears the counters first and leaves the bytes (R150). -/
theorem State.atFirstStage_buffer_of_read (s : State) {i : Instr} (h : isReadType i = true) :
    (s.atFirstStage i).totalNat = 0 ∧ (s.atFirstStage i).availableNat = 0 ∧ (s.atFirstStage i).buf = s.buf := by
  rw [s.atFirstStage_of_read h]
  exact ⟨State.clearBuffer_totalNat s.accept, State.clearBuffer_availableNat s.accept, rfl⟩

/-- A read-type command stores what is delivered to it from the first place on (R150, R152). -/
theorem exec_read_storedPrefix {i : Instr} {s t : State} (hr : isReadType i = true) (h : exec i s = .next t) :
    StoredPrefix (s.atFirstStage i) (receivedBytes (transactionCalls s.params.capacity i)
      (s.upcoming (transactionCalls s.params.capacity i).length)) t := by
  have hi := transactionCalls_ne_nil_of_read hr s.params.capacity
  rw [exec_of_transaction hi] at h
  obtain rfl := Host.Outcome.next.inj h
  have hfit : ReceivesFit (transactionCalls s.params.capacity i) (s.atFirstStage i) := by
    obtain ⟨hz, -, -⟩ := s.atFirstStage_buffer_of_read hr
    refine .inr ?_
    rw [s.atFirstStage_params, hz, Nat.zero_add]
    exact receivesIn_transactionCalls_le hi
  rw [← (s.atFirstStage_env i).upcoming]
  exact hfit.readsOn.runCalls

end Sys2Proof.Machine

namespace Sys2Proof.Proofs

open Sys2Proof.Machine

/-- Settles O28: from the first stage, or from the wait a step goes on with, every receive that succeeds stores its
answer's byte in the next free place, and every other outcome stores nothing. -/
theorem readKeepsWhatItReceived : Obligations.ReadKeepsWhatItReceived := by
  refine ⟨fun i s t hr h => ?command, fun s t ph c rest hb hr hj h => ?resumed⟩
  case command =>
    have hi := transactionCalls_ne_nil_of_read hr s.params.capacity
    have f := exec_transaction_frame hi h
    obtain ⟨bs, hs, hbs⟩ := exec_read_storedPrefix hr h
    obtain ⟨hz, haz, hbuf⟩ := s.atFirstStage_buffer_of_read hr
    have htotal := hs.total
    rw [hz, Nat.zero_add] at htotal
    have hcount := hs.count
    rw [s.atFirstStage_hbTrace i] at hcount
    have hle := hbs.length_le.trans (receivedBytes_length_le _ _)
    refine ⟨hs.available (haz.trans hz.symm), by rw [hcount, htotal], htotal ▸ hle,
      htotal ▸ hle.trans (receivesIn_transactionCalls_le hi), fun j hj => ?_, fun j hj => ?_, f.timeoutMs, f.params,
      f.offers, f.resetLine⟩
    · have := hs.read_eq hbs (j := j) (htotal ▸ hj)
      rwa [hz, Nat.zero_add] at this
    · rw [hs.others j (.inr hj), hbuf]
  case resumed =>
    obtain ⟨hfit, rfl⟩ := step_of_busy hr hb hj h
    have hfit : ReceivesFit (c :: rest) s := by simpa [Job.fits, ReceivesFit] using hfit
    obtain ⟨bs, hs, hbs⟩ := hfit.readsOn.resume (ph := ph)
    have htotal := hs.total
    refine ⟨by omega, by rw [hs.count, htotal]; omega, hs.available, fun j hlow hj => ?_, hs.others⟩
    have := hs.read_eq hbs (j := j - s.totalNat) (by omega)
    rwa [Nat.add_sub_cancel' hlow] at this

end Sys2Proof.Proofs
end

section
/-! PROOFS. A read all of whose primitives are granted: READ, WRRD.P8 and WRRD.P16 (spec/43_read.md R150 to R159). -/

namespace Sys2Proof.Machine

/-! ### The bytes for the receives -/

theorem State.upcoming_length (n : Nat) (s : State) : (s.upcoming n).length = n := by
  induction n generalizing s with
  | zero => rfl
  | succ n ih => exact congrArg (· + 1) (ih s.dropAnswer)

/-- Answer `k` is the next one once `k` answers are used up. -/
theorem State.upcoming_getElem? {n k : Nat} (hk : k < n) (s : State) :
    (s.upcoming n)[k]? = some (s.dropAnswers k).answer := by
  induction k generalizing n s with
  | zero =>
    cases n with
    | zero => cases hk
    | succ n => rfl
  | succ k ih =>
    cases n with
    | zero => cases hk
    | succ n => exact ih (Nat.lt_of_succ_lt_succ hk) s.dropAnswer

/-- Stages that receive nothing use up their answers without a byte. -/
theorem receivedBytes_append_of_no_receive {lead : List Call} (h : receivesIn lead = 0) (rest : List Call)
    {as : List Answer} (hlen : lead.length ≤ as.length) :
    receivedBytes (lead ++ rest) as = receivedBytes rest (as.drop lead.length) := by
  induction lead generalizing as with
  | nil => rfl
  | cons c cs ih =>
    obtain ⟨hc, hcs⟩ := receivesIn_cons_eq_zero h
    cases as with
    | nil => cases hlen
    | cons a as =>
      rw [List.cons_append, receivedBytes, c.isReceive_eq, hc]
      exact ih hcs (Nat.le_of_succ_le_succ hlen)

/-- Receives alone take the byte of each answer. -/
theorem receivedBytes_of_receives {cs : List Call} (h : ∀ c ∈ cs, c.isReceive = true) (as : List Answer) :
    receivedBytes cs as = (as.take cs.length).map Answer.rxData := by
  induction cs generalizing as with
  | nil => rfl
  | cons c cs ih =>
    obtain ⟨hc, hcs⟩ := List.forall_mem_cons.1 h
    cases as with
    | nil => rfl
    | cons a as =>
      rw [receivedBytes, hc, if_pos rfl, ih hcs]
      rfl

/-- Byte `j` received after a lead without receives comes with the answer `j` places after the lead's. -/
theorem receivedBytes_getElem? {lead receives : List Call} (hlead : receivesIn lead = 0)
    (hreceives : ∀ c ∈ receives, c.isReceive = true) {j n : Nat} (hj : j < receives.length)
    (hn : lead.length + receives.length ≤ n) (s : State) :
    (receivedBytes (lead ++ receives) (s.upcoming (lead.length + receives.length)))[j]? =
      ((s.upcoming n)[lead.length + j]?).map Answer.rxData := by
  rw [receivedBytes_append_of_no_receive hlead _ (by rw [State.upcoming_length]; omega),
    receivedBytes_of_receives hreceives, List.getElem?_map, List.getElem?_take_of_lt hj, List.getElem?_drop,
    State.upcoming_getElem? (by omega), State.upcoming_getElem? (by omega)]

/-- Stage 6 but for its last receive is acknowledged (R152). -/
theorem receiveCalls_succ (m : Nat) :
    receiveCalls (m + 1) = List.replicate m ⟨6, .recvB true⟩ ++ [⟨6, .recvB false⟩] := by
  induction m with
  | zero => rfl
  | succ m ih => exact congrArg (_ :: ·) ih

/-! ### The stages of a granted read -/

section
variable {s : State} {i : Instr}

/-- The next stage granted too. -/
theorem State.beforeStage_succ {k : Nat} {c : Call} (hc : (transactionCalls s.params.capacity i)[k]? = some c) :
    s.beforeStage i (k + 1) = grantedCall c (s.beforeStage i k) := by
  rw [State.beforeStage, List.take_add_one, hc]
  exact afterCalls_append _ [c] _

/-- A transaction all of whose stages are granted responds 0 from the state they leave (R145, R159). -/
theorem exec_of_all_granted (hi : transactionCalls s.params.capacity i ≠ [])
    (hg : grantsAll s.params.codes s.timeoutMs ((transactionCalls s.params.capacity i).map Call.prim)
      (s.upcoming (transactionCalls s.params.capacity i).length) = true) :
    exec i s = .next ((s.beforeStage i (transactionCalls s.params.capacity i).length).finish 0) := by
  rw [State.beforeStage, List.take_length]
  exact exec_of_granted_stages (rest := []) (List.append_nil _).symm (by rwa [List.append_nil]) hg

/-- The byte a granted receive stores is the one in `rx` (R104, R152). -/
theorem read_grantedCall_of_receive {c : Call} (hc : c.isReceive = true) (s : State) :
    Memory.read? (grantedCall c s).buf s.totalNat = some (grantedCall c s).rx := by
  obtain ⟨-, -, hbuf, hrx⟩ := grantedCall_of_receive hc s
  rw [hbuf, hrx, Memory.read_write_same]

/-- The stages of a read-type command, by position: `lead` without a receive, `m + 1` receives, the stop (R152, R153,
R154). -/
structure ReadStages (calls lead : List Call) (m : Nat) : Prop where
  noReceive : receivesIn lead = 0
  calls_eq : calls = lead ++ receiveCalls (m + 1) ++ [⟨7, .stop⟩]

section
variable {calls lead : List Call} {m : Nat} (h : ReadStages calls lead m)
include h

theorem ReadStages.map_prim : calls.map Call.prim =
    lead.map Call.prim ++ List.replicate m (.recvB true) ++ [.recvB false, .stop] := by
  simp [h.calls_eq, receiveCalls_succ]

theorem ReadStages.map_busOp : calls.map (fun c => c.prim.busOp) =
    (lead.map Call.prim).map Prim.busOp ++ List.replicate m (.receive true) ++ [.receive false, .issueStop] := by
  simp [h.calls_eq, receiveCalls_succ, Prim.busOp]

theorem ReadStages.length_eq : calls.length = lead.length + m + 2 := by
  simp [h.calls_eq, Nat.add_assoc]

theorem ReadStages.getElem?_lastReceive : calls[lead.length + m]? = some ⟨6, .recvB false⟩ := by
  simp [h.calls_eq, receiveCalls_succ]

theorem ReadStages.getElem?_stop : calls[lead.length + m + 1]? = some ⟨7, .stop⟩ := by
  rw [h.calls_eq, List.getElem?_append_right (by simp [Nat.add_assoc])]
  simp [Nat.add_assoc]

/-- Before the last receive. -/
theorem ReadStages.take_lastReceive : calls.take (lead.length + m) = lead ++ List.replicate m ⟨6, .recvB true⟩ := by
  rw [h.calls_eq, receiveCalls_succ, ← List.append_assoc, List.append_assoc, List.take_left' (by simp)]

theorem ReadStages.take_stop : calls.take (lead.length + m + 1) = lead ++ receiveCalls (m + 1) := by
  rw [h.calls_eq, List.take_left' (by simp [Nat.add_assoc])]

end

/-- Before its stop a granted read has its bytes stored, the last one in `rx` too (R152, R159). -/
theorem State.beforeStage_stop_of_read {lead : List Call} {m : Nat} (hr : isReadType i = true)
    (h : ReadStages (transactionCalls s.params.capacity i) lead m) :
    (s.beforeStage i (lead.length + m + 1)).totalNat = m + 1 ∧
      Memory.read? (s.beforeStage i (lead.length + m + 1)).buf m =
        some (s.beforeStage i (lead.length + m + 1)).rx := by
  have hacked : receivesIn (List.replicate m (⟨6, .recvB true⟩ : Call)) = m := by
    have hall := receivesIn_receiveCalls (m + 1)
    rw [receiveCalls_succ, receivesIn_append] at hall
    exact Nat.succ.inj hall
  obtain ⟨hm, -⟩ := State.beforeStage_buffer_of_read hr h.getElem?_lastReceive
  obtain ⟨hn, -⟩ := State.beforeStage_buffer_of_read hr h.getElem?_stop
  rw [h.take_lastReceive, receivesIn_append, h.noReceive, hacked, Nat.zero_add] at hm
  rw [h.take_stop, receivesIn_append, h.noReceive, receivesIn_receiveCalls, Nat.zero_add] at hn
  have hread := read_grantedCall_of_receive (c := ⟨6, .recvB false⟩) rfl (s.beforeStage i (lead.length + m))
  rw [hm, ← State.beforeStage_succ h.getElem?_lastReceive] at hread
  exact ⟨hn, hread⟩

/-- R159, for any read-type command by its stages. -/
theorem readSucceeds {lead : List Call} {m : Nat} (hr : isReadType i = true)
    (h : ReadStages (transactionCalls s.params.capacity i) lead m) :
    Claim.ReadSucceeds i (lead.map Call.prim) (m + 1) s := by
  intro hg
  have hlen := h.length_eq
  have hcount : (lead.map Call.prim).length + (m + 1) + 1 = (transactionCalls s.params.capacity i).length := by
    rw [hlen, List.length_map]
    omega
  rw [Nat.add_sub_cancel, ← h.map_prim, hcount] at hg
  have hexec := exec_of_all_granted (transactionCalls_ne_nil_of_read hr _) hg
  have henv := afterCalls_atFirstStage_env s i (transactionCalls s.params.capacity i)
  have f := s.beforeStage_frame i (transactionCalls s.params.capacity i).length
  have hstop := State.beforeStage_succ h.getElem?_stop
  obtain ⟨-, havail, hbytes, hothers⟩ := State.beforeStage_buffer_of_read hr h.getElem?_stop
  obtain ⟨htotal, hlast⟩ := State.beforeStage_stop_of_read hr h
  obtain ⟨ht, ha, hb, hx⟩ := grantedCall_of_not_receive (c := ⟨7, .stop⟩) rfl (s.beforeStage i (lead.length + m + 1))
  rw [← hstop, ← hlen] at ht ha hb hx
  rw [s.atFirstStage_of_read hr] at f
  rw [hcount]
  refine ⟨_, hexec, ?responses, ?ops, s.beforeStage_nReset i _, ?held, rfl, rfl, rfl, rfl, ht.trans htotal,
    (ha.trans havail).trans ht.symm, fun j hj => ?bytes, fun j hj => ?others, ?last, s.beforeStage_timeoutMs i _,
    s.beforeStage_params i _, f.offers, f.resetLine, ?env, ?draws⟩
  case responses => rw [State.finish_responses, s.beforeStage_responses]
  case ops =>
    rw [State.finish_hbTrace, s.beforeStage_busOps, List.take_length, h.map_busOp, Nat.add_sub_cancel]
    simp only [List.append_assoc]
  case held =>
    rw [hlen, hstop]
    rfl
  case bytes =>
    have hreceived := receivedBytes_getElem? h.noReceive (fun _ => receiveCalls_isReceive (n := m + 1))
      (n := (transactionCalls s.params.capacity i).length) (by rwa [receiveCalls_length])
      (by rw [receiveCalls_length]; omega) s
    rw [receiveCalls_length] at hreceived
    rw [State.finish_buf, hb, hbytes j (htotal ▸ hj), h.take_stop, List.length_map]
    exact hreceived
  case others => rw [State.finish_buf, hb, hothers j (htotal ▸ hj)]
  case last => rw [State.finish_buf, State.finish_rx, hb, hx, Nat.add_sub_cancel, hlast]
  case env => rw [State.finish_env, State.beforeStage, List.take_length, henv.env]
  case draws => rw [State.finish_draws, State.beforeStage, List.take_length, henv.draws]

/-- The same for a command whose stages are written with its own count, which is never 0 (R82, R151). -/
theorem readSucceeds_of_calls (lead : List Call) {n : Nat} (hr : isReadType i = true) (hlead : receivesIn lead = 0)
    (hn : 1 ≤ n) (hcalls : transactionCalls s.params.capacity i = lead ++ receiveCalls n ++ [⟨7, .stop⟩]) :
    Claim.ReadSucceeds i (lead.map Call.prim) n s := by
  obtain ⟨m, rfl⟩ := Nat.exists_eq_add_of_le' hn
  exact readSucceeds hr ⟨hlead, hcalls⟩

end

end Sys2Proof.Machine

namespace Sys2Proof.Proofs

open Sys2Proof.Machine

/-- Settles O22: READ's lead is the start and the read address. -/
theorem directReadSucceeds : Obligations.DirectReadSucceeds := fun a n s =>
  readSucceeds_of_calls [⟨1, .start⟩, ⟨5, .sendA (slaR a)⟩] rfl rfl (one_le_normalise s.params.capacity_pos n) rfl

/-- Settles O23: the lead of both commands sends the pointer and starts again, without a stop. -/
theorem writeThenReadSucceeds : Obligations.WriteThenReadSucceeds := by
  refine ⟨fun a p n s => ?_, fun a p n s => ?_⟩
  · exact readSucceeds_of_calls
      [⟨1, .start⟩, ⟨2, .sendA (slaW a)⟩, ⟨3, .sendB p⟩, ⟨4, .start⟩, ⟨5, .sendA (slaR a)⟩] rfl rfl
      (one_le_normalise s.params.capacity_pos n) rfl
  · exact readSucceeds_of_calls
      [⟨1, .start⟩, ⟨2, .sendA (slaW a)⟩, ⟨3, .sendB (hiByte p)⟩, ⟨3, .sendB (loByte p)⟩, ⟨4, .start⟩,
        ⟨5, .sendA (slaR a)⟩] rfl rfl
      (one_le_normalise s.params.capacity_pos n) rfl

end Sys2Proof.Proofs
end

section
/-! PROOFS. The consumer commands AVAIL and RECV and the timeout commands SETTO and GETTO: what each hands back, and all
it writes (spec/44_buffer_config.md R170 to R173). -/

namespace Sys2Proof

theorem Params.idxw_le (p : Params) : p.idxw ≤ 16 := by
  unfold Params.idxw
  split <;> omega

theorem decode_setto (th tl : Byte) : decode [0x50, th, tl] = .ok (.setto (joinBytes th tl)) := rfl

end Sys2Proof

namespace Sys2Proof.Machine

variable (s : State)

/-! ### What each command does -/

theorem exec_avail : exec .avail s = .next (s.answered 0 s.availableWord) := rfl

theorem exec_setto (t : Word16) : exec (.setto t) s = .next ((s.setTimeout t).answered 0 0) := rfl

theorem exec_getto : exec .getto s = .next (s.answered 0 s.timeoutMs) := rfl

theorem State.readIndex_of_unread {s : State} (hne : s.availableNat ≠ 0) (hat : s.availableNat ≤ s.totalNat)
    (htc : s.totalNat ≤ s.params.capacity) : s.readIndex = some (s.totalNat - s.availableNat) :=
  if_pos ⟨hat, by omega⟩

/-! ### The count AVAIL hands back -/

/-- The response has room for every bit of the count: the zero-extension loses none. -/
theorem State.availableWord_toNat : s.availableWord.toNat = s.availableNat :=
  BitVec.toNat_setWidth_of_le s.params.idxw_le

theorem resetWith_availableWord (p : Params) : (State.resetWith p).availableWord = 0 :=
  BitVec.setWidth_zero _ _

/-- A response changes nothing of an idle block but the list of responses. -/
theorem State.answered_withResponses_of_idle {s : State} (hbusy : s.busy = false) (hjob : s.job = none) (x : Byte)
    (d : Word16) (rs : List Response) : { s.answered x d with responses := rs } = { s with responses := rs } := by
  rw [State.answered, ← hbusy, ← hjob]

/-- Each AVAIL leaves the count the next one hands back. -/
theorem runCommands_avail (n : Nat) {s : State} (hbusy : s.busy = false) (hjob : s.job = none) :
    runCommands (List.replicate n .avail) s =
      some { s with responses := s.responses ++ List.replicate n ⟨false, 0, s.availableWord⟩ } := by
  induction n generalizing s with
  | zero =>
    rw [List.replicate_zero, List.replicate_zero, List.append_nil]
    rfl
  | succ n ih =>
    have hfirst := runCommands_cons_of_next (exec_avail s) (List.replicate n .avail)
    have hrest := ih (s := s.answered 0 s.availableWord) rfl rfl
    rw [List.replicate_succ, hfirst, hrest, State.answered_withResponses_of_idle hbusy hjob, List.replicate_succ,
      List.append_cons]
    rfl

end Sys2Proof.Machine

namespace Sys2Proof.Proofs

open Sys2Proof.Machine

/-- Settles O30: the count is extended without loss, and an AVAIL leaves it, and the idle block, as it was. -/
theorem availCommand : Obligations.AvailCommand :=
  ⟨rfl, fun s => ⟨exec_avail s, s.availableWord_toNat⟩,
    fun p => by rw [exec_avail, resetWith_availableWord],
    fun n _ hbusy hjob => runCommands_avail n hbusy hjob⟩

/-- Settles O31: an unread byte lies inside the buffer, so RECV reads it. -/
theorem recvCommand : Obligations.RecvCommand :=
  ⟨rfl, fun _ => ⟨exec_recv_of_empty, fun _ hne hat htc hbyte =>
    exec_recv_of_byte hne (State.readIndex_of_unread hne hat htc) hbyte⟩⟩

/-- Settles O34: the two bytes are joined, most significant first (R52). -/
theorem setTimeoutCommand : Obligations.SetTimeoutCommand := by
  refine ⟨fun th tl => ?decodes, fun t s => exec_setto s t⟩
  rw [decode_setto, eq_ofNat_of_toNat (joinBytes_toNat th tl)]

/-- Settles O35: SETTO's answer carries the timeout that GETTO hands back. -/
theorem getTimeoutCommand : Obligations.GetTimeoutCommand := by
  refine ⟨rfl, exec_getto, fun t s => ?afterSetto, fun p => ⟨_, exec_getto _, rfl⟩⟩
  have hgetto := exec_getto ((s.setTimeout t).answered 0 0)
  refine ⟨_, (runCommands_cons_of_next (exec_setto s t) _).trans (runCommands_cons_of_next hgetto []), ?_⟩
  exact List.append_assoc s.responses _ _

end Sys2Proof.Proofs
end

section
/-! PROOFS. The block has no fatal condition (spec/60_exceptions.md R194, R196, R197): whatever the environment answers,
a step from a state that meets the invariant answers a next state. -/

namespace Sys2Proof.Machine

/-- RECV alone looks at the buffer: an unread byte has been written and lies inside it (R22, R171). -/
theorem exec_recv_answers {s : State} (h : s.BufferInv) : ∃ t, exec .recv s = .next t := by
  by_cases hempty : s.availableNat = 0
  · exact ⟨_, exec_recv_of_empty hempty⟩
  · obtain ⟨t, ht, -⟩ := exec_recv_of_unread h hempty
    exact ⟨t, ht⟩

/-- Every command is answered from a buffer that meets its invariant. -/
theorem exec_answers (i : Instr) {s : State} (h : s.BufferInv) : ∃ t, exec i s = .next t := by
  rcases command_kinds i s.params.capacity with ⟨p, hp⟩ | hi | hl
  · exact ⟨_, exec_of_primOf hp s⟩
  · exact ⟨_, exec_of_transaction hi s⟩
  · cases i with
    | recv => exact exec_recv_answers h
    | avail => exact ⟨_, exec_avail s⟩
    | setto t => exact ⟨_, exec_setto s t⟩
    | getto => exact ⟨_, exec_getto s⟩
    | _ => cases hl

/-- An idle block runs the packet presented, refuses it, or waits for one (R70, R88, R207). -/
theorem servePort_answers {s : State} (h : s.BufferInv) : ∃ t, servePort s = .next t := by
  unfold servePort
  split
  next => exact ⟨s, rfl⟩
  next pkt rest _ =>
    split
    next i _ => exact exec_answers i (s := s.setOffers rest) h
    next => exact ⟨_, rfl⟩

/-- R64 (a): the position keeps room in the buffer for the receives the running command has still to make. -/
theorem Job.fits_of_positionInv {s : State} {j : Job} (h : s.PositionInv) (hj : s.job = some j) : j.fits s = true := by
  rw [State.PositionInv, hj] at h
  cases j with
  | primitive ph p => rfl
  | transaction ph c rest =>
    obtain ⟨-, -, -, -, hroom, -⟩ := h
    rw [Job.fits, decide_eq_true hroom, Bool.or_true]

theorem step_answers {s : State} (h : s.Inv) : ∃ t, step s = .next t := by
  obtain ⟨hbuffer, hbusyInv, hposition⟩ := h
  cases hr : s.resetLine
  case true => exact ⟨_, if_pos hr⟩
  case false =>
    cases hj : s.job with
    | some j =>
      have hbusy : s.busy = true := by rw [hbusyInv, hj]; rfl
      exact ⟨_, step_of_fits hr hbusy hj (Job.fits_of_positionInv hposition hj)⟩
    | none =>
      have hbusy : s.busy = false := by rw [hbusyInv, hj]; rfl
      rw [step, hr, hbusy]
      exact servePort_answers hbuffer

end Sys2Proof.Machine

namespace Sys2Proof.Proofs

open Sys2Proof.Machine

/-- Settles O47: a reset is always taken, a running command's receives fit the buffer, and an idle block answers every
packet, an unread byte being one that was written. -/
theorem noFaultUnderInvariant : Obligations.NoFaultUnderInvariant := fun _ => step_answers

end Sys2Proof.Proofs
end

section
/-! PROOFS. What a status means to a transaction (spec/60_exceptions.md R190, R191, R195): no status is a success and a
NACK, lost arbitration at the first start is returned raw, and a failure never looks like the result 0. -/

namespace Sys2Proof.Machine

/-! ### Lost arbitration (R191) -/

/-- R84: the code of lost arbitration is none of a start's two success codes, and a start has no NACK. -/
theorem judge_start_lostArb {c : StatusCodes} (hc : c.Valid) : judge c .start c.lostArb = .other := by
  obtain ⟨hdistinct, -⟩ := hc
  simp only [StatusCodes.toList, List.nodup_cons, List.mem_cons, not_or] at hdistinct
  refine judge_of_not_mem ?_ List.not_mem_nil
  simp only [successSet, List.mem_cons, List.not_mem_nil, or_false]
  grind

/-- Every transaction begins with a start in stage 1 (R142, R153, R154). -/
theorem transactionCalls_getElem?_zero {i : Instr} {n : Nat} (h : transactionCalls n i ≠ []) :
    (transactionCalls n i)[0]? = some ⟨1, .start⟩ := by
  rcases transactionCalls_shape h with ⟨-, a, bytes, e, -⟩ | ⟨-, a, n, e | ⟨ptr, e, -⟩⟩ <;> rw [e] <;> rfl

/-! ### The result 0 (R190) -/

section
variable {p : Prim} {s : State} {o : PrimOutcome} {k : BitVec 3}

theorem outcome_of_dropStopOutcome {x : Byte} {r : Progress × State} (h : (dropStopOutcome x r).1 = .ended o) :
    o = .nack x := by
  obtain ⟨_ | _, _⟩ := r <;> cases h
  rfl

/-- A primitive that ends without being granted ends with a failure: a timeout, a NACK, or the status it read. -/
theorem outcome_of_not_granted (hg : s.answer.grants s.params.codes s.timeoutMs p = false)
    (h : (runPrim p s).1 = .ended o) : o = .timeout ∨ (∃ x, o = .nack x) ∨ o = .fault s.answer.status := by
  cases hw : s.answer.primWait s.timeoutMs p with
  | timeout => exact .inl (Progress.ended.inj (h.symm.trans (failsWith_timeout hw).outcome))
  | undecided =>
    rw [runPrim_undecided hw] at h
    cases h
  | done =>
    obtain ⟨hp, hne⟩ : p ≠ .stop ∧ judge s.params.codes p s.answer.status ≠ .success := by
      simpa [Answer.grants, hw] using hg
    cases hj : judge s.params.codes p s.answer.status with
    | success => exact absurd hj hne
    | nack =>
      rw [runPrim_of_nack hw hj] at h
      exact .inr (.inl ⟨_, outcome_of_dropStopOutcome h⟩)
    | other => exact .inr (.inr (Progress.ended.inj (h.symm.trans (failsWith_fault hp hw hj).outcome)))

/-- A stage number is not 0, and remains so as a result (R192). -/
theorem stage_result_ne_zero (hk : k ≠ 0) : k.setWidth 8 ≠ (0 : Byte) := by bv_omega

/-- R190: the result of a stage that ends without being granted is its number or, under R121 (e), a status of 8 or
more. -/
theorem remap_ne_zero_of_not_granted (hg : s.answer.grants s.params.codes s.timeoutMs p = false)
    (h : (runPrim p s).1 = .ended o) (hk : k ≠ 0) (h8 : 8 ≤ s.answer.status.toNat) : o.remap k ≠ 0 := by
  rcases outcome_of_not_granted hg h with rfl | ⟨x, rfl⟩ | rfl
  · exact stage_result_ne_zero hk
  · exact stage_result_ne_zero hk
  · rw [PrimOutcome.remap]
    bv_omega

end

section
variable {c : Call} {cs : List Call} {s : State}

theorem Call.stage_ne_zero (h : c.wellStaged = true) : c.stage ≠ 0 := by
  unfold Call.wellStaged at h
  split at h <;> simp only [Bool.or_eq_true, decide_eq_true_eq] at h <;> bv_omega

/-- A stage that is not granted does not let the transaction respond 0: it fails with another result or waits on. -/
theorem responses_ne_of_not_granted (hc : c.wellStaged = true)
    (hg : s.answer.grants s.params.codes s.timeoutMs c.prim = false) (h8 : 8 ≤ s.answer.status.toNat) :
    (runCalls (c :: cs) s).responses ≠ s.responses ++ [⟨false, 0, 0⟩] := by
  have hresp := (runPrim_frame c.prim (s.enterStage c.stage)).responses
  rcases hrun : runPrim c.prim (s.enterStage c.stage) with ⟨o | ph, t⟩ <;> rw [hrun] at hresp
  case pending =>
    rw [runCalls_pending hrun, State.suspend_responses, hresp]
    simp
  case ended =>
    have hne := remap_ne_zero_of_not_granted (s := s.enterStage c.stage) hg (by rw [hrun]) (Call.stage_ne_zero hc) h8
    have hok : o ≠ .ok := fun e => hne (by rw [e]; rfl)
    rw [runCalls_fails hrun hok, State.finish_responses, hresp]
    simpa using hne

/-- A transaction that responds 0 was granted every stage. -/
theorem grantsAll_of_responds_zero (hc : cs.all Call.wellStaged = true)
    (h8 : ∀ a ∈ s.upcoming cs.length, 8 ≤ a.status.toNat)
    (h : (runCalls cs s).responses = s.responses ++ [⟨false, 0, 0⟩]) :
    grantsAll s.params.codes s.timeoutMs (cs.map Call.prim) (s.upcoming cs.length) = true := by
  induction cs generalizing s with
  | nil => rfl
  | cons c cs ih =>
    rw [List.all_cons, Bool.and_eq_true] at hc
    obtain ⟨hstaged, hstagedRest⟩ := hc
    obtain ⟨hfirst, hrest⟩ := List.forall_mem_cons.1 h8
    cases hg : s.answer.grants s.params.codes s.timeoutMs c.prim with
    | false => exact absurd h (responses_ne_of_not_granted hstaged hg hfirst)
    | true =>
      have f := grantedCall_frame c s
      have e := (grantedCall_env c s).upcoming cs.length
      rw [runCalls_ok (runPrim_granted (s := s.enterStage c.stage) hg)] at h
      have k := ih (s := grantedCall c s) hstagedRest (by rwa [e]) (by rw [f.responses]; exact h)
      rw [f.params, f.timeoutMs, e] at k
      rw [List.map_cons, List.length_cons, State.upcoming, grantsAll, hg, k]
      rfl

/-- R190, R229: the same of a transaction command. -/
theorem grantsAll_of_exec_responds_zero {i : Instr} {t : State} (hi : transactionCalls s.params.capacity i ≠ [])
    (h8 : ∀ a ∈ s.upcoming (transactionCalls s.params.capacity i).length, 8 ≤ a.status.toNat)
    (h : exec i s = .next t) (hzero : t.responses = s.responses ++ [⟨false, 0, 0⟩]) :
    grantsAll s.params.codes s.timeoutMs ((transactionCalls s.params.capacity i).map Call.prim)
      (s.upcoming (transactionCalls s.params.capacity i).length) = true := by
  rw [exec_of_transaction hi] at h
  obtain rfl := Host.Outcome.next.inj h
  have hup := (s.atFirstStage_env i).upcoming (transactionCalls s.params.capacity i).length
  rw [← s.atFirstStage_responses i] at hzero
  rw [← hup] at h8
  have k := grantsAll_of_responds_zero (transactionCalls_wellStaged hi) h8 hzero
  rwa [s.atFirstStage_params i, s.atFirstStage_timeoutMs i, hup] at k

end

end Sys2Proof.Machine

namespace Sys2Proof.Proofs

open Sys2Proof.Machine

/-- Settles O9: R84 keeps the eleven codes distinct. -/
theorem statusSetsDisjoint : Obligations.StatusSetsDisjoint := fun p _ _ hs hn =>
  not_mem_successSet_of_mem_nackSet p.codes_valid hn hs

/-- Settles O27: a start reads lost arbitration as a fault, and the first start has no stage before it. -/
theorem lostArbitrationAtStart : Obligations.LostArbitrationAtStart := by
  intro i s hi hw hstatus
  have hother : judge s.params.codes .start s.answer.status = .other := by
    rw [hstatus]
    exact judge_start_lostArb s.params.codes_valid
  rw [← hstatus]
  exact transactionFaultGivesStatus i s 0 ⟨1, .start⟩ (transactionCalls_getElem?_zero hi) rfl nofun hw hother

/-- Settles O41: a stage that is not granted fails with a result other than 0, so all were granted, and granted stages
run no recovery. -/
theorem zeroMeansSuccess : Obligations.ZeroMeansSuccess := by
  intro i s t hi h8 h hzero
  rw [exec_of_all_granted hi (grantsAll_of_exec_responds_zero hi h8 h hzero)] at h
  obtain rfl := Host.Outcome.next.inj h
  refine ⟨s.beforeStage_nReset i _, ?_⟩
  rw [State.finish_hbTrace, s.beforeStage_busOps, List.take_length]

end Sys2Proof.Proofs
end

section
/-! PROOFS. Reset, idling, and the bus at the end of a transaction (spec/70_reset_and_hazards.md R220, R221, R232). -/

namespace Sys2Proof.Machine

/-! ### The bus at the end of a transaction (R145, R159, R232) -/

section
variable {s : State} {c : Call} {cs : List Call} {r : Progress × State}

/-- The bus is not held, unless a command is still in progress. -/
def State.ReleasedAtEnd (t : State) : Prop := t.job = none → t.busHeld = false

@[simp] theorem Call.advance_busHeld (c : Call) (s : State) : (c.advance s).busHeld = s.busHeld := by
  unfold Call.advance
  cases c.prim <;> rfl

/-- A stage that fails ends the transaction (R143). -/
theorem settleCall_of_fails {o : PrimOutcome} (ho : o ≠ .ok) (rest : State → State) (c : Call) (cs : List Call)
    (t : State) : settleCall rest c cs (.ended o, t) = t.finish (o.remap t.stage) := by
  cases o with
  | ok => exact absurd rfl ho
  | timeout => rfl
  | nack x => rfl
  | fault x => rfl

/-- Only the last stage can end a transaction with a success, and it is a stop; a failure releases the bus at any stage.
`StageRule` does not serve here either: it asks the claim of an end whatever its outcome, and a start that succeeded
holds the bus. -/
theorem settleCall_releasedAtEnd {rest : State → State} (k : PrimSpec c.prim s r) (hlast : EndsWithStop (c :: cs))
    (hrest : ∀ t, (cs = [] → t.busHeld = false) → (rest t).ReleasedAtEnd) :
    (settleCall rest c cs r).ReleasedAtEnd := by
  obtain ⟨o | ph, t⟩ := r
  case ended =>
    by_cases ho : o = .ok
    · subst ho
      refine hrest _ fun hnil => ?_
      rw [Call.advance_busHeld]
      exact k.stop (hlast c (by rw [hnil]; rfl)) rfl
    · rw [settleCall_of_fails ho]
      exact fun _ => k.fails o rfl ho
  case pending => exact nofun

theorem runCalls_releasedAtEnd (hlast : EndsWithStop cs) (hheld : cs = [] → s.busHeld = false) :
    (runCalls cs s).ReleasedAtEnd := by
  induction cs generalizing s with
  | nil => exact fun _ => hheld rfl
  | cons c cs ih => exact settleCall_releasedAtEnd (runPrim_spec _ _) hlast fun _ => ih hlast.tail

theorem exec_transaction_releasedAtEnd {i : Instr} {t : State} (hi : transactionCalls s.params.capacity i ≠ [])
    (h : exec i s = .next t) : t.ReleasedAtEnd := by
  rw [exec_of_transaction hi] at h
  obtain rfl := Host.Outcome.next.inj h
  exact runCalls_releasedAtEnd (transactionCalls_endsWithStop hi) fun hnil => absurd hnil hi

theorem resume_releasedAtEnd {ph : Phase} (h : s.PositionInv) (hj : s.job = some (.transaction ph c cs)) :
    ((Job.transaction ph c cs).resume s).ReleasedAtEnd := by
  rw [State.PositionInv, hj] at h
  obtain ⟨-, -, hstop, hnack, -, -⟩ := h
  have hlast : EndsWithStop (c :: cs) := fun d hd => by
    rw [hd] at hstop
    exact Option.some.inj hstop
  exact settleCall_releasedAtEnd (resumePrim_spec ph c.prim s hnack) hlast fun _ => runCalls_releasedAtEnd hlast.tail

/-- A block that has responded has no command in progress. -/
theorem RespondsOnce.job_eq_none {t : State} (h : RespondsOnce s t) (hidle : t.busy = false) : t.job = none := by
  rcases h with ⟨-, hj, -⟩ | ⟨hbusy, -, -⟩
  · exact hj
  · rw [hidle] at hbusy
    cases hbusy

end

/-! ### Reset and idling (R220, R221, R207) -/

theorem step_of_reset {s : State} (hr : s.resetLine = true) : step s = .next s.takeReset := if_pos hr

theorem step_of_no_packet {s : State} (hr : s.resetLine = false) (hb : s.busy = false) (ho : s.offers = []) :
    step s = .next s := by
  simp [step, servePort, hr, hb, ho]

end Sys2Proof.Machine

namespace Sys2Proof.Proofs

open Sys2Proof.Machine

/-- Settles O40: a transaction that responds has failed, and every failure releases the bus, or has done its last stage,
a stop. -/
theorem transactionReleasesBus : Obligations.TransactionReleasesBus := by
  refine ⟨fun i s t hi h hidle => ?command, fun s t ph c rest hinv hr hj h hidle => ?resumed⟩
  case command => exact exec_transaction_releasedAtEnd hi h ((exec_respondsOnce h).job_eq_none hidle)
  case resumed =>
    obtain ⟨-, hbusyInv, hposition⟩ := hinv
    have hbusy : s.busy = true := by rw [hbusyInv, hj]; rfl
    obtain ⟨-, rfl⟩ := step_of_busy hr hbusy hj h
    exact resume_releasedAtEnd hposition hj ((resume_respondsOnce hbusy _).job_eq_none hidle)

/-- Settles O50: the step takes the reset values, whatever was in progress, and keeps what is not the block's. -/
theorem resetAbandonsCommand : Obligations.ResetAbandonsCommand := by
  intro s hr
  obtain ⟨htimeout, htotal, havailable, hstage, hidx, hbusy, hheld, -, htrace⟩ := resetValues s.params
  exact ⟨s.takeReset, step_of_reset hr, htimeout, htotal, havailable, hstage, hidx, hbusy, rfl, hheld, htrace, rfl, rfl,
    rfl, rfl⟩

/-- Settles O51. -/
theorem idleBlockWaits : Obligations.IdleBlockWaits := fun _ hr hb ho => step_of_no_packet hr hb ho

end Sys2Proof.Proofs
end

section
/-! PROOFS. The states in which RECV stops by name, which no run from reset reaches (spec/20_memory.md section 7,
spec/93_implementation_defined.md U5). -/

namespace Sys2Proof.Machine

variable {s : State}

theorem State.readIndex_of_inside (hat : s.availableNat ≤ s.totalNat)
    (hlt : s.totalNat - s.availableNat < s.params.capacity) : s.readIndex = some (s.totalNat - s.availableNat) :=
  if_pos ⟨hat, hlt⟩

/-- R64 (c): counters that cross, or a distance between them of at least the capacity, admit no index. -/
theorem State.readIndex_of_outside
    (h : s.totalNat < s.availableNat ∨ s.params.capacity ≤ s.totalNat - s.availableNat) : s.readIndex = none := by
  refine if_neg fun ⟨hat, hlt⟩ => ?_
  rcases h with hcross | hfar
  · exact Nat.not_le_of_lt hcross hat
  · exact Nat.not_lt_of_le hfar hlt

theorem exec_recv_of_no_index (hne : s.availableNat ≠ 0) (hk : s.readIndex = none) :
    exec .recv s = .fault .bufferIndexOutOfRange := by
  change execRecv s = _
  simp only [execRecv, if_neg hne, hk]

theorem exec_recv_of_unwritten {k : Nat} (hne : s.availableNat ≠ 0) (hk : s.readIndex = some k)
    (hb : Memory.read? s.buf k = none) : exec .recv s = .fault .unwrittenBufferByte := by
  change execRecv s = _
  simp only [execRecv, if_neg hne, hk, hb]

end Sys2Proof.Machine

namespace Sys2Proof.Proofs

open Sys2Proof.Machine

/-- Settles O32: with a byte unread, RECV stops where it has no index to read, and where it reads nothing there. -/
theorem recvOfUnwrittenByteFaults : Obligations.RecvOfUnwrittenByteFaults := fun _ hne =>
  ⟨fun hat hlt hunwritten => exec_recv_of_unwritten hne (State.readIndex_of_inside hat hlt) hunwritten,
    fun houtside => exec_recv_of_no_index hne (State.readIndex_of_outside houtside)⟩

end Sys2Proof.Proofs
end
